-- ==== Sys2Proof/Word.lean ====
section
/-! DEFINITION. Word.lean: the word types of the block (00_scope.md R19), the shapes a bus access can have
(20_memory.md R94) and the names by which the decoder refuses an operation. -/

namespace Sys2Proof

/-- A byte: the smallest addressable unit (20_memory.md R80). -/
abbrev Byte := BitVec 8
/-- A 16-bit word. -/
abbrev Half := BitVec 16
/-- A 32-bit long, and a CPU register (10_state.md R32). -/
abbrev Word := BitVec 32
/-- A bus address: 24 bits (10_state.md R31). Arithmetic on it wraps at 2^24 (20_memory.md R81). -/
abbrev Addr := BitVec 24

/-- The widths of a CPU access (20_memory.md R94): 1, 2 or 4 bytes. -/
inductive Width where
  | byte
  | word
  | long
  deriving DecidableEq, Repr, Inhabited

/-- A bus access without its address: its direction, its width and, for a write, its value. -/
inductive Access where
  | rd8
  | rd16
  | rd32
  | wr8 (v : Byte)
  | wr16 (v : Half)
  | wr32 (v : Word)
  deriving DecidableEq, Repr, Inhabited

/-- Why the decoder refuses an operation frame (Decode.lean). -/
inductive DecodeError where
  /-- The frame ends before its operation is complete. -/
  | truncated
  /-- The address is not in the I/O page 0xFF8000..0xFFFFFF, so no row of the table names it. -/
  | notDeviceAddress
  /-- An access that has no row of its own: the bus makes it of the transactions of R131 (R85, R91). -/
  | compoundAccess
  /-- The access-kind byte is none of 0..6. -/
  | badKind
  /-- The command-space byte is none of 0..4. -/
  | badSpace
  /-- An interrupt acknowledge of level 0: R148 takes levels 1..7. -/
  | badLevel
  deriving DecidableEq, Repr, Inhabited

/-- The 68000 registers of 10_state.md R32..R34 that an instruction of the core reads and writes. -/
structure CoreRegs where
  d : Vector Word 8
  a : Vector Word 7
  usp : Word
  ssp : Word
  pc : Word
  sr : Half
  deriving DecidableEq, Repr, Inhabited

end Sys2Proof
end

