-- ==== Sys2Proof/Config.lean ====
section
/-! DEFINITION. Config.lean: what an implementation fixes. The parameters with a domain are the plain structure
Params, a field of the state that no step changes, so that every statement holds for every value of them
(00_scope.md R10..R18; 92_eei_decisions.md, Open parameters). The tables and values the spec leaves OPEN, and the
draws of R23, are opaque constants: nothing in Lean can evaluate them. -/

namespace Sys2Proof.Config

/-- `CPU_HZ` (R8). -/
def cpuHz : Nat := 8000000
/-- `MFP_HZ` (R8). -/
def mfpHz : Nat := 2457600
/-- `CYCLES_PER_BYTE` (R8). -/
def cyclesPerByte : Nat := 10240
/-- `LINES_PER_FRAME` (R9). -/
def linesPerFrame : Nat := 313

/-- `RAM_SIZE` (R10). -/
inductive RamSize where
  | k512
  | m1
  | m2
  | m4
  deriving DecidableEq, Repr, Inhabited

/-- `TOS_SIZE` (R11): 192 KiB or 256 KiB. -/
inductive TosSize where
  | k192
  | k256
  deriving DecidableEq, Repr, Inhabited

/-- `PALETTE_LAYOUT` (R17, R412). -/
inductive PaletteLayout where
  | nibble
  | packed
  deriving DecidableEq, Repr, Inhabited

/-- `ENV_LOOP_START` (R15, R263): 32 or 64. -/
inductive EnvLoop where
  | from32
  | from64
  deriving DecidableEq, Repr, Inhabited

/-- `FDC_TRACK_CMDS` (R17, R324, R325). -/
inductive TrackCmds where
  | refuse
  | havoc
  deriving DecidableEq, Repr, Inhabited

/-- `MSA_SIDES_WORD` (R17, R341). -/
inductive MsaSides where
  | minusOne
  | count
  deriving DecidableEq, Repr, Inhabited

/-- `ENV_TABLE` (R15, R17): the default table of 42_ym2149.md R268, or another one, its 16 rows of 96 values. A value no
row lists is 0, so that every list is a table. -/
inductive EnvTable where
  | blocks
  | rows (r : List (List (BitVec 5)))
  deriving DecidableEq, Repr, Inhabited

/-- `AUDIO_FLOAT` (R17): the default, IEEE 754 binary64 arithmetic with binary32 storage, or another format, whose
operations are the opaque constants below (log 15). -/
inductive AudioFloat where
  | ieee
  | other
  deriving DecidableEq, Repr, Inhabited

/-- A number of the audio path, as its encoding in `AUDIO_FLOAT` (10_state.md R51; log 15). Zero is encoded as 0. -/
abbrev FloatBits := Nat

/-- The parameters of R10..R18 that have a domain. `ikbdLen` is `IKBD_CMD_LEN`: a first byte and the length of its
command (44_acia_ikbd.md R378). -/
structure Params where
  ramSize : RamSize
  tosSize : TosSize
  hostRate : Nat
  mouseSensX : Nat
  mouseSensY : Nat
  overshootCarry : Bool
  mfpIprGatedByIer : Bool
  ymSideInvert : Bool
  paletteLayout : PaletteLayout
  envLoop : EnvLoop
  trackCmds : TrackCmds
  msaSides : MsaSides
  maxSpeed : Bool
  envTable : EnvTable
  ikbdLen : List (Nat × Nat)
  audioFloat : AudioFloat
  deriving DecidableEq, Repr, Inhabited

/-- What the uninterpreted part of `CPU_CORE` (R16) does next inside one instruction (log 8). The registers `r` of an
access or an exception are those the core has by then: they are what is left when the access is unwound, or what the
exception saves and finds, so that which updates survive is `CPU_CORE`'s (60_exceptions.md R454; U14). -/
inductive CoreAct where
  /-- One bus read; `prog` says that it is an instruction fetch. -/
  | read (r : CoreRegs) (w : Width) (a : Word) (prog : Bool)
  /-- One bus write. -/
  | write (r : CoreRegs) (w : Width) (a : Word) (v : Word)
  /-- The instruction completes with these registers; it writes no system byte of SR. -/
  | finish (r : CoreRegs)
  /-- A privileged instruction completes with these registers: MOVE/ANDI/ORI/EORI to SR, MOVE USP (R466). -/
  | finishPrivileged (r : CoreRegs)
  /-- The exception of R459 with vector `n`; `next` is the next instruction's address. -/
  | except (r : CoreRegs) (n : Byte) (next : Word)
  /-- RESET (R467). -/
  | resetOut (next : Word)
  /-- An event the core has no meaning for (R187). -/
  | noMeaning
  deriving DecidableEq, Repr, Inhabited

/-- The joystick inputs (44_acia_ikbd.md R382). -/
inductive JoyInput where
  | up | down | left | right | fire
  deriving DecidableEq, Repr, Inhabited

/-- The host agent's steps (46_frame_loop.md R439). -/
inductive HostStep where
  | mouseMove (hx hy : Int)
  | mouseButton (left right : Bool)
  | joystick (input : JoyInput) (pressed : Bool)
  | key (scancode : Byte) (down : Bool)
  | insertSt (file : List Byte) (writeProtected : Bool)
  | insertMsa (file : List Byte) (writeProtected : Bool)
  | eject
  | reset
  | shutdown
  deriving DecidableEq, Repr, Inhabited

/-- Whose step comes next (20_memory.md R101, R103). -/
inductive Turn where
  | emulator
  | host
  | audio (n : Nat)
  deriving DecidableEq, Repr, Inhabited

/-- `draw()` (R23): the n-th free value. -/
opaque freeWord : Nat → Word
/-- `RAM_INIT` (R17, R67; D4): the byte of RAM address `a` in generation `g` of the RAM's draws. -/
opaque ramByte (g a : Nat) : Byte
/-- `TOS_IMAGE` (R11): byte `i` of the image. -/
opaque tosByte (i : Nat) : Byte
/-- `KEYMAP` (R14; D64). -/
opaque keymap : Byte → Byte
/-- `VOL4TO5` (R15, R268; D38). -/
opaque vol4to5 : BitVec 4 → BitVec 5
/-- `YM_DAC` (R15, R268; D38). -/
opaque ymDac : BitVec 5 → Half
/-- `CPU_CORE`'s cycle costs (R16, R173): one less than the n-th cost. -/
opaque coreCycles : Nat → Nat
/-- The other formats' `s` of 42_ym2149.md R267, from the three DAC values: how they are added is the format's too. -/
opaque floatLevel : Half → Half → Half → FloatBits
/-- The other formats' 0.995 (R267). -/
opaque floatPole : FloatBits
/-- The other formats' addition. -/
opaque floatAdd : FloatBits → FloatBits → FloatBits
/-- The other formats' subtraction. -/
opaque floatSub : FloatBits → FloatBits → FloatBits
/-- The other formats' multiplication. -/
opaque floatMul : FloatBits → FloatBits → FloatBits
/-- The other formats' storage of a sample in the ring. -/
opaque floatStore : FloatBits → FloatBits
/-- The turns that come next, as the host and audio agents fall between the emulator's steps (20_memory.md R101, R103). -/
opaque hostTurns : Nat → List Turn
/-- The host steps that the host agent queues (46_frame_loop.md R439). -/
opaque hostSteps : Nat → List HostStep
/-- `CPU_CORE`'s other instructions (R16): from the registers the instruction began with, its first word and the values
it has read so far. -/
opaque coreAct (r : CoreRegs) (ir : Half) (reads : List Word) : CoreAct

end Sys2Proof.Config
end

