-- ==== Sys2Proof/Machine/Bits.lean ====
section
/-! DEFINITION. Machine/Bits.lean: byte order and bit fields (00_scope.md R19, R21; 20_memory.md R83). -/

namespace Sys2Proof.Machine

/-- `be16(b0, b1)` (R21). -/
def be16 (b0 b1 : Byte) : Half := b0 ++ b1

/-- `be32(b0..b3)` (R21). -/
def be32 (b0 b1 b2 b3 : Byte) : Word := (b0 ++ b1) ++ (b2 ++ b3)

/-- Bits 15..8 of a word. -/
def hi8 (v : Half) : Byte := v.extractLsb' 8 8

/-- Bits 7..0 of a word. -/
def lo8 (v : Half) : Byte := v.extractLsb' 0 8

/-- Bits 31..16 of a long. -/
def hi16 (v : Word) : Half := v.extractLsb' 16 16

/-- Bits 15..0 of a long. -/
def lo16 (v : Word) : Half := v.extractLsb' 0 16

/-- How many bytes an access moves. -/
def widthBytes : Width → Nat
  | .byte => 1
  | .word => 2
  | .long => 4

/-- The width of an access. -/
def accessWidth : Access → Width
  | .rd8 | .wr8 _ => .byte
  | .rd16 | .wr16 _ => .word
  | .rd32 | .wr32 _ => .long

/-- Bit `i` of a byte as a Bool. -/
def bit (v : Byte) (i : Nat) : Bool := v.getLsbD i

end Sys2Proof.Machine
end

