-- ==== Sys2Proof/Machine/Tables.lean ====
section
/-! DEFINITION. Machine/Tables.lean: the tables of the spec that decode an address or a command: the I/O register
map (30_encoding.md R133..R137), the bus-error ranges (R135), the IKBD length table (44_acia_ikbd.md R378) and the
YM envelope table (42_ym2149.md R268). -/

namespace Sys2Proof.Machine

/-- The MFP register file in the order of R39. -/
inductive MfpReg where
  | gpip | aer | ddr | iera | ierb | ipra | iprb | isra | isrb | imra | imrb | vr
  | tacr | tbcr | tcdcr | tadr | tbdr | tcdr | tddr
  deriving DecidableEq, Repr, Inhabited

/-- A claimed byte address of the I/O page (20_memory.md R88). -/
inductive IoReg where
  | fdcDataHi | fdcDataLo
  | dmaModeHi | dmaModeLo
  | dmaAddrHi | dmaAddrMid | dmaAddrLo
  | ymSelect | ymData
  | mfp (r : MfpReg)
  | aciaControl | aciaData
  deriving DecidableEq, Repr, Inhabited

/-- The claimed addresses outside the MFP (R133, R134, R137). -/
def ioRegTable : List (Nat × IoReg) :=
  [(0xFF8604, .fdcDataHi), (0xFF8605, .fdcDataLo), (0xFF8606, .dmaModeHi), (0xFF8607, .dmaModeLo),
   (0xFF8609, .dmaAddrHi), (0xFF860B, .dmaAddrMid), (0xFF860D, .dmaAddrLo),
   (0xFF8800, .ymSelect), (0xFF8802, .ymData), (0xFFFC00, .aciaControl), (0xFFFC02, .aciaData)]

/-- The MFP registers at 0xFFFA01 + 2r (R136). -/
def mfpRegTable : List (Nat × IoReg) :=
  [(0xFFFA01, .mfp .gpip), (0xFFFA03, .mfp .aer), (0xFFFA05, .mfp .ddr), (0xFFFA07, .mfp .iera),
   (0xFFFA09, .mfp .ierb), (0xFFFA0B, .mfp .ipra), (0xFFFA0D, .mfp .iprb), (0xFFFA0F, .mfp .isra),
   (0xFFFA11, .mfp .isrb), (0xFFFA13, .mfp .imra), (0xFFFA15, .mfp .imrb), (0xFFFA17, .mfp .vr),
   (0xFFFA19, .mfp .tacr), (0xFFFA1B, .mfp .tbcr), (0xFFFA1D, .mfp .tcdcr), (0xFFFA1F, .mfp .tadr),
   (0xFFFA21, .mfp .tbdr), (0xFFFA23, .mfp .tcdr), (0xFFFA25, .mfp .tddr)]

/-- The value a table gives a key. -/
def tableFind {α : Type} : List (Nat × α) → Nat → Option α
  | [], _ => none
  | (k, x) :: t, n => if n = k then some x else tableFind t n

/-- The claimed register at a byte address, if there is one (R88). -/
def ioReg (a : Addr) : Option IoReg :=
  match tableFind ioRegTable a.toNat with
  | some r => some r
  | none => tableFind mfpRegTable a.toNat

/-- The units whose addresses raise a bus error (R135). -/
inductive BerrUnit where
  | steSound
  | blitter
  | steJoystick
  deriving DecidableEq, Repr, Inhabited

/-- The bus-error range a byte address lies in, bounds inclusive (R135). -/
def berrUnit (a : Addr) : Option BerrUnit :=
  if 0xFF8900 ≤ a.toNat ∧ a.toNat ≤ 0xFF8924 then some .steSound
  else if 0xFF8A00 ≤ a.toNat ∧ a.toNat ≤ 0xFF8A3C then some .blitter
  else if 0xFF9200 ≤ a.toNat ∧ a.toNat ≤ 0xFF9222 then some .steJoystick
  else none

/-- The byte addresses of an access, each wrapped at 2^24 (R81). -/
def accessAddrs (w : Width) (a : Addr) : List Addr :=
  (List.range (widthBytes w)).map fun i => a + BitVec.ofNat 24 i

/-- The first byte address of an access that lies in a bus-error range (R90, R456). -/
def firstBusError (w : Width) (a : Addr) : Option Addr :=
  (accessAddrs w a).find? fun b => (berrUnit b).isSome

/-- The named plain-storage registers of R132 (rows of the opcode table of their own). -/
inductive PlainReg where
  | mmuConfig | videoBaseHi | videoBaseMid | videoCounterHi | videoCounterMid | videoCounterLo
  | syncMode | resolution
  deriving DecidableEq, Repr, Inhabited

/-- The addresses of R132, but for the palette. -/
def plainRegTable : List (Nat × PlainReg) :=
  [(0xFF8001, .mmuConfig), (0xFF8201, .videoBaseHi), (0xFF8203, .videoBaseMid), (0xFF8205, .videoCounterHi),
   (0xFF8207, .videoCounterMid), (0xFF8209, .videoCounterLo), (0xFF820A, .syncMode), (0xFF8260, .resolution)]

/-- Is `a` one of the palette's bytes 0xFF8240..0xFF825F (R132)? -/
def isPalette (a : Addr) : Bool := a.toNat / 32 = 0xFF8240 / 32

/-- The lengths ASE fixes (R378). -/
def ikbdLenAse : List (Nat × Nat) :=
  [(0x07, 2), (0x08, 1), (0x09, 5), (0x0A, 3), (0x12, 1), (0x14, 1), (0x15, 1), (0x16, 1), (0x1A, 1),
   (0x1C, 1), (0x80, 2)]

/-- The rest of the default table of R378. -/
def ikbdLenRest : List (Nat × Nat) :=
  [(0x0B, 3), (0x0C, 3), (0x0D, 1), (0x0E, 6), (0x0F, 1), (0x10, 1), (0x11, 1), (0x13, 1), (0x17, 2),
   (0x18, 1), (0x19, 7), (0x1B, 7), (0x20, 4), (0x21, 3), (0x22, 3), (0x87, 1), (0x88, 1), (0x89, 1),
   (0x8A, 1), (0x8B, 1), (0x8C, 1), (0x8F, 1), (0x90, 1), (0x92, 1), (0x94, 1), (0x95, 1), (0x99, 1),
   (0x9A, 1)]

/-- The default of `IKBD_CMD_LEN` (R378). -/
def ikbdLenDefault : List (Nat × Nat) := ikbdLenAse ++ ikbdLenRest

/-- The default length of the command a first byte selects (R378). -/
def ikbdLen (b : Byte) : Option Nat := tableFind ikbdLenDefault b.toNat

/-- The length of the command a first byte selects, by the parameter `IKBD_CMD_LEN` (R378, R17). -/
def ikbdLenOf (p : Config.Params) (b : Byte) : Option Nat := tableFind p.ikbdLen b.toNat

/-- Every length of `IKBD_CMD_LEN` lies in 1..7 (30_encoding.md R145). -/
def ikbdLensOk (p : Config.Params) : Bool := p.ikbdLen.all fun e => 1 ≤ e.2 && e.2 ≤ 7

/-- The block shapes of R268. -/
inductive EnvBlock where
  | down | up | zero | top
  deriving DecidableEq, Repr, Inhabited

/-- `BLOCKS[shape][k]` of R268. -/
def envBlock (shape : BitVec 4) (k : Nat) : EnvBlock :=
  match shape.toNat, k with
  | 8, _ => .down
  | 10, 0 => .down | 10, 1 => .up | 10, _ => .down
  | 11, 0 => .down | 11, _ => .top
  | 12, _ => .up
  | 13, 0 => .up | 13, _ => .top
  | 14, 0 => .up | 14, 1 => .down | 14, _ => .up
  | n, 0 => if n < 4 ∨ n = 9 then .down else .up
  | _, _ => .zero

/-- `f(block, j)` of R268. -/
def envStep (b : EnvBlock) (j : Nat) : BitVec 5 :=
  match b with
  | .down => BitVec.ofNat 5 (31 - j)
  | .up => BitVec.ofNat 5 j
  | .zero => 0
  | .top => 31

/-- The default `ENV_TABLE[shape][pos]` (R268). -/
def envTable (shape : BitVec 4) (pos : Nat) : BitVec 5 :=
  envStep (envBlock shape (pos / 32)) (pos % 32)

/-- `ENV_TABLE[shape][pos]`, by the parameter (R15, R17). -/
def envTableOf (p : Config.Params) (shape : BitVec 4) (pos : Nat) : BitVec 5 :=
  match p.envTable with
  | .blocks => envTable shape pos
  | .rows r => (r.getD shape.toNat []).getD pos 0

/-- Bytes of RAM (R10). -/
def ramBytes (p : Config.Params) : Nat :=
  match p.ramSize with
  | .k512 => 0x080000
  | .m1 => 0x100000
  | .m2 => 0x200000
  | .m4 => 0x400000

/-- Bytes of ROM (R11). -/
def tosBytes (p : Config.Params) : Nat :=
  match p.tosSize with
  | .k192 => 0x30000
  | .k256 => 0x40000

/-- `TOS_BASE` (R11). -/
def tosBase (p : Config.Params) : Nat :=
  match p.tosSize with
  | .k192 => 0xFC0000
  | .k256 => 0xE00000

/-- `ENV_LOOP_START` (R263). -/
def envLoopStart (p : Config.Params) : Nat :=
  match p.envLoop with
  | .from32 => 32
  | .from64 => 64

end Sys2Proof.Machine
end

