-- ==== Sys2Proof/Syntax.lean ====
section
/-! DEFINITION. Syntax.lean: the operations of the block, one constructor per row of spec/opcode_table.json
(30_encoding.md R130). A read row has no operand; a write row carries the value written; a plain-storage or
bus-error row carries the access made. -/

namespace Sys2Proof

/-- The operations this block decodes (R130), in the table's order. -/
inductive Instr where
  -- Bus transactions at device registers (30_encoding.md R130, kind 1; R132..R137).
  /-- `FDC_DMA_DATA_RD16` at 0xFF8604 (R302). -/
  | fdcDmaDataRd16
  /-- `FDC_DMA_DATA_WR16` at 0xFF8604 (R300). -/
  | fdcDmaDataWr16 (v : Half)
  /-- `FDC_DMA_DATA_HI_RD8` at 0xFF8604 (R303). -/
  | fdcDmaDataHiRd8
  /-- `FDC_DMA_DATA_HI_WR8` at 0xFF8604 (R301). -/
  | fdcDmaDataHiWr8 (v : Byte)
  /-- `FDC_DMA_DATA_LO_RD8` at 0xFF8605 (R303). -/
  | fdcDmaDataLoRd8
  /-- `FDC_DMA_DATA_LO_WR8` at 0xFF8605 (R301). -/
  | fdcDmaDataLoWr8 (v : Byte)
  /-- `DMA_STATUS_RD16` at 0xFF8606 (R306). -/
  | dmaStatusRd16
  /-- `DMA_MODE_WR16` at 0xFF8606 (R305). -/
  | dmaModeWr16 (v : Half)
  /-- `DMA_STATUS_HI_RD8` at 0xFF8606 (R306). -/
  | dmaStatusHiRd8
  /-- `DMA_MODE_HI_WR8` at 0xFF8606 (R305). -/
  | dmaModeHiWr8 (v : Byte)
  /-- `DMA_STATUS_LO_RD8` at 0xFF8607 (R306). -/
  | dmaStatusLoRd8
  /-- `DMA_MODE_LO_WR8` at 0xFF8607 (R305). -/
  | dmaModeLoWr8 (v : Byte)
  /-- `DMA_ADDR_HI_RD8` at 0xFF8609 (R308). -/
  | dmaAddrHiRd8
  /-- `DMA_ADDR_HI_WR8` at 0xFF8609 (R307). -/
  | dmaAddrHiWr8 (v : Byte)
  /-- `DMA_ADDR_MID_RD8` at 0xFF860B (R308). -/
  | dmaAddrMidRd8
  /-- `DMA_ADDR_MID_WR8` at 0xFF860B (R307). -/
  | dmaAddrMidWr8 (v : Byte)
  /-- `DMA_ADDR_LO_RD8` at 0xFF860D (R308). -/
  | dmaAddrLoRd8
  /-- `DMA_ADDR_LO_WR8` at 0xFF860D (R307). -/
  | dmaAddrLoWr8 (v : Byte)
  /-- `YM_SELECT_WR8` at 0xFF8800 (R250). -/
  | ymSelectWr8 (v : Byte)
  /-- `YM_DATA_RD8` at 0xFF8800 (R251). -/
  | ymDataRd8
  /-- `YM_DATA_WR8` at 0xFF8802 (R252). -/
  | ymDataWr8 (v : Byte)
  /-- `YM_FF8802_RD8` at 0xFF8802 (R253). -/
  | ymFf8802Rd8
  /-- `MFP_GPIP_RD8` at 0xFFFA01 (R201). -/
  | mfpGpipRd8
  /-- `MFP_GPIP_WR8` at 0xFFFA01 (R202). -/
  | mfpGpipWr8 (v : Byte)
  /-- `MFP_AER_RD8` at 0xFFFA03 (R203). -/
  | mfpAerRd8
  /-- `MFP_AER_WR8` at 0xFFFA03 (R203). -/
  | mfpAerWr8 (v : Byte)
  /-- `MFP_DDR_RD8` at 0xFFFA05 (R204). -/
  | mfpDdrRd8
  /-- `MFP_DDR_WR8` at 0xFFFA05 (R204). -/
  | mfpDdrWr8 (v : Byte)
  /-- `MFP_IERA_RD8` at 0xFFFA07 (R205). -/
  | mfpIeraRd8
  /-- `MFP_IERA_WR8` at 0xFFFA07 (R206). -/
  | mfpIeraWr8 (v : Byte)
  /-- `MFP_IERB_RD8` at 0xFFFA09 (R205). -/
  | mfpIerbRd8
  /-- `MFP_IERB_WR8` at 0xFFFA09 (R206). -/
  | mfpIerbWr8 (v : Byte)
  /-- `MFP_IPRA_RD8` at 0xFFFA0B (R207). -/
  | mfpIpraRd8
  /-- `MFP_IPRA_WR8` at 0xFFFA0B (R208). -/
  | mfpIpraWr8 (v : Byte)
  /-- `MFP_IPRB_RD8` at 0xFFFA0D (R207). -/
  | mfpIprbRd8
  /-- `MFP_IPRB_WR8` at 0xFFFA0D (R208). -/
  | mfpIprbWr8 (v : Byte)
  /-- `MFP_ISRA_RD8` at 0xFFFA0F (R209). -/
  | mfpIsraRd8
  /-- `MFP_ISRA_WR8` at 0xFFFA0F (R210). -/
  | mfpIsraWr8 (v : Byte)
  /-- `MFP_ISRB_RD8` at 0xFFFA11 (R209). -/
  | mfpIsrbRd8
  /-- `MFP_ISRB_WR8` at 0xFFFA11 (R210). -/
  | mfpIsrbWr8 (v : Byte)
  /-- `MFP_IMRA_RD8` at 0xFFFA13 (R211). -/
  | mfpImraRd8
  /-- `MFP_IMRA_WR8` at 0xFFFA13 (R211). -/
  | mfpImraWr8 (v : Byte)
  /-- `MFP_IMRB_RD8` at 0xFFFA15 (R211). -/
  | mfpImrbRd8
  /-- `MFP_IMRB_WR8` at 0xFFFA15 (R211). -/
  | mfpImrbWr8 (v : Byte)
  /-- `MFP_VR_RD8` at 0xFFFA17 (R212). -/
  | mfpVrRd8
  /-- `MFP_VR_WR8` at 0xFFFA17 (R213). -/
  | mfpVrWr8 (v : Byte)
  /-- `MFP_TACR_RD8` at 0xFFFA19 (R216). -/
  | mfpTacrRd8
  /-- `MFP_TACR_WR8` at 0xFFFA19 (R216). -/
  | mfpTacrWr8 (v : Byte)
  /-- `MFP_TBCR_RD8` at 0xFFFA1B (R216). -/
  | mfpTbcrRd8
  /-- `MFP_TBCR_WR8` at 0xFFFA1B (R216). -/
  | mfpTbcrWr8 (v : Byte)
  /-- `MFP_TCDCR_RD8` at 0xFFFA1D (R216). -/
  | mfpTcdcrRd8
  /-- `MFP_TCDCR_WR8` at 0xFFFA1D (R216). -/
  | mfpTcdcrWr8 (v : Byte)
  /-- `MFP_TADR_RD8` at 0xFFFA1F (R214). -/
  | mfpTadrRd8
  /-- `MFP_TADR_WR8` at 0xFFFA1F (R215). -/
  | mfpTadrWr8 (v : Byte)
  /-- `MFP_TBDR_RD8` at 0xFFFA21 (R214). -/
  | mfpTbdrRd8
  /-- `MFP_TBDR_WR8` at 0xFFFA21 (R215). -/
  | mfpTbdrWr8 (v : Byte)
  /-- `MFP_TCDR_RD8` at 0xFFFA23 (R214). -/
  | mfpTcdrRd8
  /-- `MFP_TCDR_WR8` at 0xFFFA23 (R215). -/
  | mfpTcdrWr8 (v : Byte)
  /-- `MFP_TDDR_RD8` at 0xFFFA25 (R214). -/
  | mfpTddrRd8
  /-- `MFP_TDDR_WR8` at 0xFFFA25 (R215). -/
  | mfpTddrWr8 (v : Byte)
  /-- `ACIA_STATUS_RD8` at 0xFFFC00 (R360). -/
  | aciaStatusRd8
  /-- `ACIA_CONTROL_WR8` at 0xFFFC00 (R361). -/
  | aciaControlWr8 (v : Byte)
  /-- `ACIA_DATA_RD8` at 0xFFFC02 (R362). -/
  | aciaDataRd8
  /-- `ACIA_DATA_WR8` at 0xFFFC02 (R363). -/
  | aciaDataWr8 (v : Byte)
  /-- `MMU_CONFIG` at 0xFF8001 (R89). -/
  | mmuConfig (acc : Access)
  /-- `VIDEO_BASE_HI` at 0xFF8201 (R89). -/
  | videoBaseHi (acc : Access)
  /-- `VIDEO_BASE_MID` at 0xFF8203 (R89). -/
  | videoBaseMid (acc : Access)
  /-- `VIDEO_COUNTER_HI` at 0xFF8205 (R89). -/
  | videoCounterHi (acc : Access)
  /-- `VIDEO_COUNTER_MID` at 0xFF8207 (R89). -/
  | videoCounterMid (acc : Access)
  /-- `VIDEO_COUNTER_LO` at 0xFF8209 (R89). -/
  | videoCounterLo (acc : Access)
  /-- `SYNC_MODE` at 0xFF820A (R89). -/
  | syncMode (acc : Access)
  /-- `PALETTE`: byte `off` of 0xFF8240..0xFF825F (R89). -/
  | palette (off : BitVec 5) (acc : Access)
  /-- `RESOLUTION` at 0xFF8260 (R89). -/
  | resolution (acc : Access)
  /-- `UNCLAIMED_IO`: any other I/O address (R89). -/
  | unclaimedIo (a : Addr) (acc : Access)
  /-- `BERR_STE_DMA_SOUND` at 0xFF8900 (R90). -/
  | berrSteDmaSound (a : Addr) (acc : Access)
  /-- `BERR_BLITTER` at 0xFF8A00 (R90). -/
  | berrBlitter (a : Addr) (acc : Access)
  /-- `BERR_STE_JOYSTICK` at 0xFF9200 (R90). -/
  | berrSteJoystick (a : Addr) (acc : Access)
  -- WD1772 command bytes (R130, kind 2; R140..R144): `fl` is the low nibble of the byte.
  /-- `RESTORE`, byte 0x0x (R311). -/
  | fdcRestore (fl : BitVec 4)
  /-- `SEEK`, byte 0x1x (R312). -/
  | fdcSeek (fl : BitVec 4)
  /-- `STEP`, byte 0x2x (R313). -/
  | fdcStep (fl : BitVec 4)
  /-- `STEP_U`, byte 0x3x (R313). -/
  | fdcStepU (fl : BitVec 4)
  /-- `STEP_IN`, byte 0x4x (R314). -/
  | fdcStepIn (fl : BitVec 4)
  /-- `STEP_IN_U`, byte 0x5x (R314). -/
  | fdcStepInU (fl : BitVec 4)
  /-- `STEP_OUT`, byte 0x6x (R315). -/
  | fdcStepOut (fl : BitVec 4)
  /-- `STEP_OUT_U`, byte 0x7x (R315). -/
  | fdcStepOutU (fl : BitVec 4)
  /-- `READ_SECTOR`, byte 0x8x (R317). -/
  | fdcReadSector (fl : BitVec 4)
  /-- `READ_SECTOR_MULTI`, byte 0x9x (R318). -/
  | fdcReadSectorMulti (fl : BitVec 4)
  /-- `WRITE_SECTOR`, byte 0xAx (R321). -/
  | fdcWriteSector (fl : BitVec 4)
  /-- `WRITE_SECTOR_MULTI`, byte 0xBx (R321). -/
  | fdcWriteSectorMulti (fl : BitVec 4)
  /-- `READ_ADDRESS`, byte 0xCx (R323). -/
  | fdcReadAddress (fl : BitVec 4)
  /-- `FORCE_INTERRUPT`, byte 0xDx (R326). -/
  | fdcForceInterrupt (fl : BitVec 4)
  /-- `READ_TRACK`, byte 0xEx (R324). -/
  | fdcReadTrack (fl : BitVec 4)
  /-- `WRITE_TRACK`, byte 0xFx (R325). -/
  | fdcWriteTrack (fl : BitVec 4)
  -- IKBD command sequences (R130, kind 3; R145): the bytes after the first are the parameters.
  /-- `SET_MOUSE_BUTTON_ACTION`, first byte 0x07 (R371). -/
  | setMouseButtonAction (p1 : Byte)
  /-- `SET_RELATIVE_MOUSE`, first byte 0x08 (R372). -/
  | setRelativeMouse
  /-- `SET_ABSOLUTE_MOUSE`, first byte 0x09 (R373). -/
  | setAbsoluteMouse (p1 : Byte) (p2 : Byte) (p3 : Byte) (p4 : Byte)
  /-- `SET_MOUSE_KEYCODE_MODE`, first byte 0x0A (R373). -/
  | setMouseKeycodeMode (p1 : Byte) (p2 : Byte)
  /-- `SET_MOUSE_THRESHOLD`, first byte 0x0B (R377). -/
  | setMouseThreshold (p1 : Byte) (p2 : Byte)
  /-- `SET_MOUSE_SCALE`, first byte 0x0C (R377). -/
  | setMouseScale (p1 : Byte) (p2 : Byte)
  /-- `INTERROGATE_MOUSE_POSITION`, first byte 0x0D (R377). -/
  | interrogateMousePosition
  /-- `LOAD_MOUSE_POSITION`, first byte 0x0E (R377). -/
  | loadMousePosition (p1 : Byte) (p2 : Byte) (p3 : Byte) (p4 : Byte) (p5 : Byte)
  /-- `SET_Y_AT_BOTTOM`, first byte 0x0F (R377). -/
  | setYAtBottom
  /-- `SET_Y_AT_TOP`, first byte 0x10 (R377). -/
  | setYAtTop
  /-- `RESUME`, first byte 0x11 (R377). -/
  | resume
  /-- `DISABLE_MOUSE`, first byte 0x12 (R374). -/
  | disableMouse
  /-- `PAUSE_OUTPUT`, first byte 0x13 (R377). -/
  | pauseOutput
  /-- `SET_JOYSTICK_EVENT_REPORTING`, first byte 0x14 (R375). -/
  | setJoystickEventReporting
  /-- `SET_JOYSTICK_INTERROGATION_MODE`, first byte 0x15 (R375). -/
  | setJoystickInterrogationMode
  /-- `JOYSTICK_INTERROGATE`, first byte 0x16 (R375). -/
  | joystickInterrogate
  /-- `SET_JOYSTICK_MONITORING`, first byte 0x17 (R377). -/
  | setJoystickMonitoring (p1 : Byte)
  /-- `SET_FIRE_BUTTON_MONITORING`, first byte 0x18 (R377). -/
  | setFireButtonMonitoring
  /-- `SET_JOYSTICK_KEYCODE_MODE`, first byte 0x19 (R377). -/
  | setJoystickKeycodeMode (p1 : Byte) (p2 : Byte) (p3 : Byte) (p4 : Byte) (p5 : Byte) (p6 : Byte)
  /-- `DISABLE_JOYSTICKS`, first byte 0x1A (R375). -/
  | disableJoysticks
  /-- `TIME_OF_DAY_CLOCK_SET`, first byte 0x1B (R377). -/
  | timeOfDayClockSet (p1 : Byte) (p2 : Byte) (p3 : Byte) (p4 : Byte) (p5 : Byte) (p6 : Byte)
  /-- `INTERROGATE_TIME_OF_DAY_CLOCK`, first byte 0x1C (R377). -/
  | interrogateTimeOfDayClock
  /-- `MEMORY_LOAD`, first byte 0x20 (R377). -/
  | memoryLoad (p1 : Byte) (p2 : Byte) (p3 : Byte)
  /-- `MEMORY_READ`, first byte 0x21 (R377). -/
  | memoryRead (p1 : Byte) (p2 : Byte)
  /-- `CONTROLLER_EXECUTE`, first byte 0x22 (R377). -/
  | controllerExecute (p1 : Byte) (p2 : Byte)
  /-- `RESET`, first byte 0x80 (R376). -/
  | ikbdReset (p1 : Byte)
  /-- `STATUS_INQUIRY_87`, first byte 0x87 (R377). -/
  | statusInquiry87
  /-- `STATUS_INQUIRY_88`, first byte 0x88 (R377). -/
  | statusInquiry88
  /-- `STATUS_INQUIRY_89`, first byte 0x89 (R377). -/
  | statusInquiry89
  /-- `STATUS_INQUIRY_8A`, first byte 0x8A (R377). -/
  | statusInquiry8A
  /-- `STATUS_INQUIRY_8B`, first byte 0x8B (R377). -/
  | statusInquiry8B
  /-- `STATUS_INQUIRY_8C`, first byte 0x8C (R377). -/
  | statusInquiry8C
  /-- `STATUS_INQUIRY_8F`, first byte 0x8F (R377). -/
  | statusInquiry8F
  /-- `STATUS_INQUIRY_90`, first byte 0x90 (R377). -/
  | statusInquiry90
  /-- `STATUS_INQUIRY_92`, first byte 0x92 (R377). -/
  | statusInquiry92
  /-- `STATUS_INQUIRY_94`, first byte 0x94 (R377). -/
  | statusInquiry94
  /-- `STATUS_INQUIRY_95`, first byte 0x95 (R377). -/
  | statusInquiry95
  /-- `STATUS_INQUIRY_99`, first byte 0x99 (R377). -/
  | statusInquiry99
  /-- `STATUS_INQUIRY_9A`, first byte 0x9A (R377). -/
  | statusInquiry9A
  /-- `UNKNOWN_FIRST_BYTE`: a first byte outside the length table (R370). -/
  | unknownFirstByte (b : Byte)
  -- YM2149 register writes (R130, kind 4; R147): select the register, then write `v`.
  /-- `YM_TONE_A_FINE`, register 0 (R258). -/
  | ymToneAFine (v : Byte)
  /-- `YM_TONE_A_COARSE`, register 1 (R258). -/
  | ymToneACoarse (v : Byte)
  /-- `YM_TONE_B_FINE`, register 2 (R258). -/
  | ymToneBFine (v : Byte)
  /-- `YM_TONE_B_COARSE`, register 3 (R258). -/
  | ymToneBCoarse (v : Byte)
  /-- `YM_TONE_C_FINE`, register 4 (R258). -/
  | ymToneCFine (v : Byte)
  /-- `YM_TONE_C_COARSE`, register 5 (R258). -/
  | ymToneCCoarse (v : Byte)
  /-- `YM_NOISE_PERIOD`, register 6 (R258). -/
  | ymNoisePeriod (v : Byte)
  /-- `YM_MIXER_ENABLE`, register 7 (R265). -/
  | ymMixerEnable (v : Byte)
  /-- `YM_LEVEL_A`, register 8 (R265). -/
  | ymLevelA (v : Byte)
  /-- `YM_LEVEL_B`, register 9 (R265). -/
  | ymLevelB (v : Byte)
  /-- `YM_LEVEL_C`, register 10 (R265). -/
  | ymLevelC (v : Byte)
  /-- `YM_ENV_PERIOD_FINE`, register 11 (R258). -/
  | ymEnvPeriodFine (v : Byte)
  /-- `YM_ENV_PERIOD_COARSE`, register 12 (R258). -/
  | ymEnvPeriodCoarse (v : Byte)
  /-- `YM_ENV_SHAPE`, register 13 (R254). -/
  | ymEnvShape (v : Byte)
  /-- `YM_PORT_A`, register 14 (R255). -/
  | ymPortA (v : Byte)
  /-- `YM_PORT_B`, register 15 (R256). -/
  | ymPortB (v : Byte)
  -- Interrupt acknowledge cycles (R130, kind 5; R148).
  /-- `IACK_L1` (R185). -/
  | iackL1
  /-- `IACK_L2` (R182). -/
  | iackL2
  /-- `IACK_L3` (R185). -/
  | iackL3
  /-- `IACK_L4` (R183). -/
  | iackL4
  /-- `IACK_L5` (R185). -/
  | iackL5
  /-- `IACK_L6` (R184). -/
  | iackL6
  /-- `IACK_L7` (R185). -/
  | iackL7
  deriving DecidableEq, Repr

end Sys2Proof
end

