-- ==== Sys2Proof/Decode.lean ====
section
/-! DEFINITION. Decode.lean: from the bytes of an operation frame to the operation, total, refusing by name; and the
encoder. A frame (log 1) is what the core presents to the block. A bus transaction is its 24-bit address, low byte
first, an access kind, and the data, high byte first (20_memory.md R83). A command is its byte, the space it is for,
a zero, and its further bytes. The spaces are told apart by the third byte: 0xFF for an I/O address, 0 for a command.
The rows themselves follow 30_encoding.md R133..R137 (addresses), R144 (WD1772), R145 and 44_acia_ikbd.md R378
(IKBD), R147 (YM) and R148 (IACK). -/

namespace Sys2Proof

open Machine

/-- The MFP register read at its address (R136). -/
def decodeMfpRead : MfpReg → Instr
  | .gpip => .mfpGpipRd8
  | .aer => .mfpAerRd8
  | .ddr => .mfpDdrRd8
  | .iera => .mfpIeraRd8
  | .ierb => .mfpIerbRd8
  | .ipra => .mfpIpraRd8
  | .iprb => .mfpIprbRd8
  | .isra => .mfpIsraRd8
  | .isrb => .mfpIsrbRd8
  | .imra => .mfpImraRd8
  | .imrb => .mfpImrbRd8
  | .vr => .mfpVrRd8
  | .tacr => .mfpTacrRd8
  | .tbcr => .mfpTbcrRd8
  | .tcdcr => .mfpTcdcrRd8
  | .tadr => .mfpTadrRd8
  | .tbdr => .mfpTbdrRd8
  | .tcdr => .mfpTcdrRd8
  | .tddr => .mfpTddrRd8

/-- The MFP register write at its address (R136). -/
def decodeMfpWrite (v : Byte) : MfpReg → Instr
  | .gpip => .mfpGpipWr8 v
  | .aer => .mfpAerWr8 v
  | .ddr => .mfpDdrWr8 v
  | .iera => .mfpIeraWr8 v
  | .ierb => .mfpIerbWr8 v
  | .ipra => .mfpIpraWr8 v
  | .iprb => .mfpIprbWr8 v
  | .isra => .mfpIsraWr8 v
  | .isrb => .mfpIsrbWr8 v
  | .imra => .mfpImraWr8 v
  | .imrb => .mfpImrbWr8 v
  | .vr => .mfpVrWr8 v
  | .tacr => .mfpTacrWr8 v
  | .tbcr => .mfpTbcrWr8 v
  | .tcdcr => .mfpTcdcrWr8 v
  | .tadr => .mfpTadrWr8 v
  | .tbdr => .mfpTbdrWr8 v
  | .tcdr => .mfpTcdrWr8 v
  | .tddr => .mfpTddrWr8 v

/-- The byte read of a claimed register (R133, R134, R136, R137). -/
def decodeRead8 : IoReg → Instr
  | .fdcDataHi => .fdcDmaDataHiRd8
  | .fdcDataLo => .fdcDmaDataLoRd8
  | .dmaModeHi => .dmaStatusHiRd8
  | .dmaModeLo => .dmaStatusLoRd8
  | .dmaAddrHi => .dmaAddrHiRd8
  | .dmaAddrMid => .dmaAddrMidRd8
  | .dmaAddrLo => .dmaAddrLoRd8
  | .ymSelect => .ymDataRd8
  | .ymData => .ymFf8802Rd8
  | .mfp m => decodeMfpRead m
  | .aciaControl => .aciaStatusRd8
  | .aciaData => .aciaDataRd8

/-- The byte write of a claimed register (R133, R134, R136, R137). -/
def decodeWrite8 (v : Byte) : IoReg → Instr
  | .fdcDataHi => .fdcDmaDataHiWr8 v
  | .fdcDataLo => .fdcDmaDataLoWr8 v
  | .dmaModeHi => .dmaModeHiWr8 v
  | .dmaModeLo => .dmaModeLoWr8 v
  | .dmaAddrHi => .dmaAddrHiWr8 v
  | .dmaAddrMid => .dmaAddrMidWr8 v
  | .dmaAddrLo => .dmaAddrLoWr8 v
  | .ymSelect => .ymSelectWr8 v
  | .ymData => .ymDataWr8 v
  | .mfp m => decodeMfpWrite v m
  | .aciaControl => .aciaControlWr8 v
  | .aciaData => .aciaDataWr8 v

/-- The row of a claimed register for an access at its address. Two addresses have a word row (20_memory.md R85, R91); a
width that has no row is made of the transactions of R131. -/
def decodeReg (r : IoReg) (acc : Access) : Except DecodeError Instr :=
  match acc with
  | .rd8 => .ok (decodeRead8 r)
  | .wr8 v => .ok (decodeWrite8 v r)
  | .rd16 =>
    match r with
    | .fdcDataHi => .ok .fdcDmaDataRd16
    | .dmaModeHi => .ok .dmaStatusRd16
    | _ => .error .compoundAccess
  | .wr16 v =>
    match r with
    | .fdcDataHi => .ok (.fdcDmaDataWr16 v)
    | .dmaModeHi => .ok (.dmaModeWr16 v)
    | _ => .error .compoundAccess
  | .rd32 | .wr32 _ => .error .compoundAccess

/-- The row of a named plain-storage register (R132). -/
def decodePlain (acc : Access) : PlainReg → Instr
  | .mmuConfig => .mmuConfig acc
  | .videoBaseHi => .videoBaseHi acc
  | .videoBaseMid => .videoBaseMid acc
  | .videoCounterHi => .videoCounterHi acc
  | .videoCounterMid => .videoCounterMid acc
  | .videoCounterLo => .videoCounterLo acc
  | .syncMode => .syncMode acc
  | .resolution => .resolution acc

/-- The row of a bus-error range (R135). -/
def decodeBerr (a : Addr) (acc : Access) : BerrUnit → Instr
  | .steSound => .berrSteDmaSound a acc
  | .blitter => .berrBlitter a acc
  | .steJoystick => .berrSteJoystick a acc

/-- The row of a bus transaction: the bus-error ranges are checked before any handler (20_memory.md R88), then the
claimed registers, the named plain registers, and plain storage (R89). -/
def decodeBus (a : Addr) (acc : Access) : Except DecodeError Instr :=
  if a.toNat < 0xFF8000 then .error .notDeviceAddress
  else match (firstBusError (accessWidth acc) a).bind berrUnit with
  | some u => .ok (decodeBerr a acc u)
  | none =>
    match ioReg a with
    | some r => decodeReg r acc
    | none =>
      match tableFind plainRegTable a.toNat with
      | some p => .ok (decodePlain acc p)
      | none => .ok (if isPalette a then .palette (a.extractLsb' 0 5) acc else .unclaimedIo a acc)

/-- The WD1772 command a byte selects by its top nibble (R144): every value has a meaning. -/
def decodeFdc (c : Byte) : Instr :=
  let fl := c.extractLsb' 0 4
  match (c.extractLsb' 4 4).toNat with
  | 0 => .fdcRestore fl
  | 1 => .fdcSeek fl
  | 2 => .fdcStep fl
  | 3 => .fdcStepU fl
  | 4 => .fdcStepIn fl
  | 5 => .fdcStepInU fl
  | 6 => .fdcStepOut fl
  | 7 => .fdcStepOutU fl
  | 8 => .fdcReadSector fl
  | 9 => .fdcReadSectorMulti fl
  | 10 => .fdcWriteSector fl
  | 11 => .fdcWriteSectorMulti fl
  | 12 => .fdcReadAddress fl
  | 13 => .fdcForceInterrupt fl
  | 14 => .fdcReadTrack fl
  | _ => .fdcWriteTrack fl

/-- The commands with no parameter (R145, 44_acia_ikbd.md R371..R378). -/
def ikbdBare : List (Nat × Instr) :=
  [(0x08, .setRelativeMouse), (0x0D, .interrogateMousePosition), (0x0F, .setYAtBottom),
   (0x10, .setYAtTop), (0x11, .resume), (0x12, .disableMouse), (0x13, .pauseOutput),
   (0x14, .setJoystickEventReporting), (0x15, .setJoystickInterrogationMode),
   (0x16, .joystickInterrogate), (0x18, .setFireButtonMonitoring), (0x1A, .disableJoysticks),
   (0x1C, .interrogateTimeOfDayClock), (0x87, .statusInquiry87), (0x88, .statusInquiry88),
   (0x89, .statusInquiry89), (0x8A, .statusInquiry8A), (0x8B, .statusInquiry8B),
   (0x8C, .statusInquiry8C), (0x8F, .statusInquiry8F), (0x90, .statusInquiry90),
   (0x92, .statusInquiry92), (0x94, .statusInquiry94), (0x95, .statusInquiry95),
   (0x99, .statusInquiry99), (0x9A, .statusInquiry9A)]

/-- The commands with one parameter (R145, 44_acia_ikbd.md R371..R378). -/
def ikbdOne (p1 : Byte) : List (Nat × Instr) :=
  [(0x07, .setMouseButtonAction p1), (0x17, .setJoystickMonitoring p1), (0x80, .ikbdReset p1)]

/-- The commands with two parameters (R145, 44_acia_ikbd.md R371..R378). -/
def ikbdTwo (p1 p2 : Byte) : List (Nat × Instr) :=
  [(0x0A, .setMouseKeycodeMode p1 p2), (0x0B, .setMouseThreshold p1 p2), (0x0C, .setMouseScale p1 p2),
   (0x21, .memoryRead p1 p2), (0x22, .controllerExecute p1 p2)]

/-- The commands with three parameters (R145, 44_acia_ikbd.md R371..R378). -/
def ikbdThree (p1 p2 p3 : Byte) : List (Nat × Instr) :=
  [(0x20, .memoryLoad p1 p2 p3)]

/-- The commands with four parameters (R145, 44_acia_ikbd.md R371..R378). -/
def ikbdFour (p1 p2 p3 p4 : Byte) : List (Nat × Instr) :=
  [(0x09, .setAbsoluteMouse p1 p2 p3 p4)]

/-- The commands with five parameters (R145, 44_acia_ikbd.md R371..R378). -/
def ikbdFive (p1 p2 p3 p4 p5 : Byte) : List (Nat × Instr) :=
  [(0x0E, .loadMousePosition p1 p2 p3 p4 p5)]

/-- The commands with six parameters (R145, 44_acia_ikbd.md R371..R378). -/
def ikbdSix (p1 p2 p3 p4 p5 p6 : Byte) : List (Nat × Instr) :=
  [(0x19, .setJoystickKeycodeMode p1 p2 p3 p4 p5 p6), (0x1B, .timeOfDayClockSet p1 p2 p3 p4 p5 p6)]

/-- The IKBD command with first byte `c` and parameters `ps` (R145). -/
def ikbdInstr (c : Nat) (ps : List Byte) : Option Instr :=
  match ps with
  | [] => tableFind ikbdBare c
  | [p1] => tableFind (ikbdOne p1) c
  | [p1, p2] => tableFind (ikbdTwo p1 p2) c
  | [p1, p2, p3] => tableFind (ikbdThree p1 p2 p3) c
  | [p1, p2, p3, p4] => tableFind (ikbdFour p1 p2 p3 p4) c
  | [p1, p2, p3, p4, p5] => tableFind (ikbdFive p1 p2 p3 p4 p5) c
  | [p1, p2, p3, p4, p5, p6] => tableFind (ikbdSix p1 p2 p3 p4 p5 p6) c
  | _ => none

/-- Read an IKBD command from its first byte and the bytes after it (R145): the length comes from the first byte. -/
def decodeIkbd (c : Byte) (rest : List Byte) : Except DecodeError (Instr × List Byte) :=
  match ikbdLen c with
  | none => .ok (.unknownFirstByte c, rest)
  | some n =>
    if rest.length < n - 1 then .error .truncated
    else match ikbdInstr c.toNat (rest.take (n - 1)) with
    | some i => .ok (i, rest.drop (n - 1))
    | none => .error .truncated

/-- The YM register write of register `n` (R147). -/
def decodeYm (n : BitVec 4) (v : Byte) : Instr :=
  match n.toNat with
  | 0 => .ymToneAFine v
  | 1 => .ymToneACoarse v
  | 2 => .ymToneBFine v
  | 3 => .ymToneBCoarse v
  | 4 => .ymToneCFine v
  | 5 => .ymToneCCoarse v
  | 6 => .ymNoisePeriod v
  | 7 => .ymMixerEnable v
  | 8 => .ymLevelA v
  | 9 => .ymLevelB v
  | 10 => .ymLevelC v
  | 11 => .ymEnvPeriodFine v
  | 12 => .ymEnvPeriodCoarse v
  | 13 => .ymEnvShape v
  | 14 => .ymPortA v
  | _ => .ymPortB v

/-- The interrupt acknowledge of a level (R148). -/
def decodeIack (l : BitVec 3) : Except DecodeError Instr :=
  match l.toNat with
  | 1 => .ok .iackL1
  | 2 => .ok .iackL2
  | 3 => .ok .iackL3
  | 4 => .ok .iackL4
  | 5 => .ok .iackL5
  | 6 => .ok .iackL6
  | 7 => .ok .iackL7
  | _ => .error .badLevel

/-- A command byte that comes with no space (space byte 0, as in a bare table word): the byte spaces of R130 overlap,
so it is read as an IKBD command where its byte is in the length table, else as an IACK where it is 1..6, else as a
WD1772 command (log 22). -/
def decodeUntagged (c : Byte) (rest : List Byte) : Except DecodeError (Instr × List Byte) :=
  if (ikbdLen c).isSome then decodeIkbd c rest
  else if 1 ≤ c.toNat ∧ c.toNat ≤ 6 then (decodeIack (c.extractLsb' 0 3)).map fun i => (i, rest)
  else .ok (decodeFdc c, rest)

/-- A command of the space `sp`: 1 WD1772, 2 IKBD, 3 YM register write, 4 interrupt acknowledge. -/
def decodeCommand (c sp : Byte) (rest : List Byte) : Except DecodeError (Instr × List Byte) :=
  match sp.toNat, rest with
  | 0, _ => decodeUntagged c rest
  | 1, _ => .ok (decodeFdc c, rest)
  | 2, _ => decodeIkbd c rest
  | 3, v :: rest' => .ok (decodeYm (c.extractLsb' 0 4) v, rest')
  | 3, [] => .error .truncated
  | 4, _ => (decodeIack (c.extractLsb' 0 3)).map fun i => (i, rest)
  | _, _ => .error .badSpace

/-- The read an access kind of 0 stands for: one of the register's own width (R94). -/
def naturalRead (a : Addr) : Access :=
  if a = 0xFF8604#24 ∨ a = 0xFF8606#24 then .rd16 else .rd8

/-- The access of a frame from its kind byte and data. -/
def decodeAccess (a : Addr) (kind : Byte) (rest : List Byte) : Except DecodeError (Access × List Byte) :=
  match kind.toNat, rest with
  | 0, _ => .ok (naturalRead a, rest)
  | 1, _ => .ok (.rd8, rest)
  | 2, _ => .ok (.rd16, rest)
  | 3, _ => .ok (.rd32, rest)
  | 4, v :: t => .ok (.wr8 v, t)
  | 5, h :: l :: t => .ok (.wr16 (be16 h l), t)
  | 6, b0 :: b1 :: b2 :: b3 :: t => .ok (.wr32 (be32 b0 b1 b2 b3), t)
  | 4, _ | 5, _ | 6, _ => .error .truncated
  | _, _ => .error .badKind

/-- A bus-transaction frame: the address, then the kind byte and the data. -/
def decodeBusFrame (a : Addr) (rest : List Byte) : Except DecodeError (Instr × List Byte) :=
  match rest with
  | [] => .error .truncated
  | kind :: data =>
    match decodeAccess a kind data with
    | .error e => .error e
    | .ok (acc, t) =>
      match decodeBus a acc with
      | .error e => .error e
      | .ok i => .ok (i, t)

/-- THE DECODER: the first operation of a list of bytes, and the rest of the list. -/
def decode : List Byte → Except DecodeError (Instr × List Byte)
  | b0 :: b1 :: b2 :: rest =>
    if b2 = 0xFF#8 then decodeBusFrame (b2 ++ b1 ++ b0) rest
    else if b2 = 0#8 then decodeCommand b0 b1 rest
    else .error .notDeviceAddress
  | _ => .error .truncated

/-- The bytes of an address, low byte first. -/
def addrBytes (a : Addr) : List Byte :=
  [a.extractLsb' 0 8, a.extractLsb' 8 8, a.extractLsb' 16 8]

/-- The kind byte and data of an access. -/
def accessBytes : Access → List Byte
  | .rd8 => [1]
  | .rd16 => [2]
  | .rd32 => [3]
  | .wr8 v => [4, v]
  | .wr16 v => [5, hi8 v, lo8 v]
  | .wr32 v => [6, hi8 (hi16 v), lo8 (hi16 v), hi8 (lo16 v), lo8 (lo16 v)]

/-- A bus-transaction frame. -/
def busFrame (a : Addr) (acc : Access) : List Byte := addrBytes a ++ accessBytes acc

/-- A command frame. -/
def commandFrame (c sp : Byte) (ps : List Byte) : List Byte := c :: sp :: 0 :: ps

/-- THE ENCODER: the frame of an operation, from the addresses of R132..R137 and the bytes of R144..R148. -/
def encode : Instr → List Byte
  | .fdcDmaDataRd16 => busFrame 0xFF8604#24 .rd16
  | .fdcDmaDataWr16 v => busFrame 0xFF8604#24 (.wr16 v)
  | .fdcDmaDataHiRd8 => busFrame 0xFF8604#24 .rd8
  | .fdcDmaDataHiWr8 v => busFrame 0xFF8604#24 (.wr8 v)
  | .fdcDmaDataLoRd8 => busFrame 0xFF8605#24 .rd8
  | .fdcDmaDataLoWr8 v => busFrame 0xFF8605#24 (.wr8 v)
  | .dmaStatusRd16 => busFrame 0xFF8606#24 .rd16
  | .dmaModeWr16 v => busFrame 0xFF8606#24 (.wr16 v)
  | .dmaStatusHiRd8 => busFrame 0xFF8606#24 .rd8
  | .dmaModeHiWr8 v => busFrame 0xFF8606#24 (.wr8 v)
  | .dmaStatusLoRd8 => busFrame 0xFF8607#24 .rd8
  | .dmaModeLoWr8 v => busFrame 0xFF8607#24 (.wr8 v)
  | .dmaAddrHiRd8 => busFrame 0xFF8609#24 .rd8
  | .dmaAddrHiWr8 v => busFrame 0xFF8609#24 (.wr8 v)
  | .dmaAddrMidRd8 => busFrame 0xFF860B#24 .rd8
  | .dmaAddrMidWr8 v => busFrame 0xFF860B#24 (.wr8 v)
  | .dmaAddrLoRd8 => busFrame 0xFF860D#24 .rd8
  | .dmaAddrLoWr8 v => busFrame 0xFF860D#24 (.wr8 v)
  | .ymSelectWr8 v => busFrame 0xFF8800#24 (.wr8 v)
  | .ymDataRd8 => busFrame 0xFF8800#24 .rd8
  | .ymDataWr8 v => busFrame 0xFF8802#24 (.wr8 v)
  | .ymFf8802Rd8 => busFrame 0xFF8802#24 .rd8
  | .mfpGpipRd8 => busFrame 0xFFFA01#24 .rd8
  | .mfpGpipWr8 v => busFrame 0xFFFA01#24 (.wr8 v)
  | .mfpAerRd8 => busFrame 0xFFFA03#24 .rd8
  | .mfpAerWr8 v => busFrame 0xFFFA03#24 (.wr8 v)
  | .mfpDdrRd8 => busFrame 0xFFFA05#24 .rd8
  | .mfpDdrWr8 v => busFrame 0xFFFA05#24 (.wr8 v)
  | .mfpIeraRd8 => busFrame 0xFFFA07#24 .rd8
  | .mfpIeraWr8 v => busFrame 0xFFFA07#24 (.wr8 v)
  | .mfpIerbRd8 => busFrame 0xFFFA09#24 .rd8
  | .mfpIerbWr8 v => busFrame 0xFFFA09#24 (.wr8 v)
  | .mfpIpraRd8 => busFrame 0xFFFA0B#24 .rd8
  | .mfpIpraWr8 v => busFrame 0xFFFA0B#24 (.wr8 v)
  | .mfpIprbRd8 => busFrame 0xFFFA0D#24 .rd8
  | .mfpIprbWr8 v => busFrame 0xFFFA0D#24 (.wr8 v)
  | .mfpIsraRd8 => busFrame 0xFFFA0F#24 .rd8
  | .mfpIsraWr8 v => busFrame 0xFFFA0F#24 (.wr8 v)
  | .mfpIsrbRd8 => busFrame 0xFFFA11#24 .rd8
  | .mfpIsrbWr8 v => busFrame 0xFFFA11#24 (.wr8 v)
  | .mfpImraRd8 => busFrame 0xFFFA13#24 .rd8
  | .mfpImraWr8 v => busFrame 0xFFFA13#24 (.wr8 v)
  | .mfpImrbRd8 => busFrame 0xFFFA15#24 .rd8
  | .mfpImrbWr8 v => busFrame 0xFFFA15#24 (.wr8 v)
  | .mfpVrRd8 => busFrame 0xFFFA17#24 .rd8
  | .mfpVrWr8 v => busFrame 0xFFFA17#24 (.wr8 v)
  | .mfpTacrRd8 => busFrame 0xFFFA19#24 .rd8
  | .mfpTacrWr8 v => busFrame 0xFFFA19#24 (.wr8 v)
  | .mfpTbcrRd8 => busFrame 0xFFFA1B#24 .rd8
  | .mfpTbcrWr8 v => busFrame 0xFFFA1B#24 (.wr8 v)
  | .mfpTcdcrRd8 => busFrame 0xFFFA1D#24 .rd8
  | .mfpTcdcrWr8 v => busFrame 0xFFFA1D#24 (.wr8 v)
  | .mfpTadrRd8 => busFrame 0xFFFA1F#24 .rd8
  | .mfpTadrWr8 v => busFrame 0xFFFA1F#24 (.wr8 v)
  | .mfpTbdrRd8 => busFrame 0xFFFA21#24 .rd8
  | .mfpTbdrWr8 v => busFrame 0xFFFA21#24 (.wr8 v)
  | .mfpTcdrRd8 => busFrame 0xFFFA23#24 .rd8
  | .mfpTcdrWr8 v => busFrame 0xFFFA23#24 (.wr8 v)
  | .mfpTddrRd8 => busFrame 0xFFFA25#24 .rd8
  | .mfpTddrWr8 v => busFrame 0xFFFA25#24 (.wr8 v)
  | .aciaStatusRd8 => busFrame 0xFFFC00#24 .rd8
  | .aciaControlWr8 v => busFrame 0xFFFC00#24 (.wr8 v)
  | .aciaDataRd8 => busFrame 0xFFFC02#24 .rd8
  | .aciaDataWr8 v => busFrame 0xFFFC02#24 (.wr8 v)
  | .mmuConfig acc => busFrame 0xFF8001#24 acc
  | .videoBaseHi acc => busFrame 0xFF8201#24 acc
  | .videoBaseMid acc => busFrame 0xFF8203#24 acc
  | .videoCounterHi acc => busFrame 0xFF8205#24 acc
  | .videoCounterMid acc => busFrame 0xFF8207#24 acc
  | .videoCounterLo acc => busFrame 0xFF8209#24 acc
  | .syncMode acc => busFrame 0xFF820A#24 acc
  | .palette off acc => busFrame (0xFF8240#24 + off.setWidth 24) acc
  | .resolution acc => busFrame 0xFF8260#24 acc
  | .unclaimedIo a acc => busFrame a acc
  | .berrSteDmaSound a acc => busFrame a acc
  | .berrBlitter a acc => busFrame a acc
  | .berrSteJoystick a acc => busFrame a acc
  | .fdcRestore fl => commandFrame (0x0#4 ++ fl) 1 []
  | .fdcSeek fl => commandFrame (0x1#4 ++ fl) 1 []
  | .fdcStep fl => commandFrame (0x2#4 ++ fl) 1 []
  | .fdcStepU fl => commandFrame (0x3#4 ++ fl) 1 []
  | .fdcStepIn fl => commandFrame (0x4#4 ++ fl) 1 []
  | .fdcStepInU fl => commandFrame (0x5#4 ++ fl) 1 []
  | .fdcStepOut fl => commandFrame (0x6#4 ++ fl) 1 []
  | .fdcStepOutU fl => commandFrame (0x7#4 ++ fl) 1 []
  | .fdcReadSector fl => commandFrame (0x8#4 ++ fl) 1 []
  | .fdcReadSectorMulti fl => commandFrame (0x9#4 ++ fl) 1 []
  | .fdcWriteSector fl => commandFrame (0xA#4 ++ fl) 1 []
  | .fdcWriteSectorMulti fl => commandFrame (0xB#4 ++ fl) 1 []
  | .fdcReadAddress fl => commandFrame (0xC#4 ++ fl) 1 []
  | .fdcForceInterrupt fl => commandFrame (0xD#4 ++ fl) 1 []
  | .fdcReadTrack fl => commandFrame (0xE#4 ++ fl) 1 []
  | .fdcWriteTrack fl => commandFrame (0xF#4 ++ fl) 1 []
  | .setMouseButtonAction p1 => commandFrame 0x07 2 [p1]
  | .setRelativeMouse => commandFrame 0x08 2 []
  | .setAbsoluteMouse p1 p2 p3 p4 => commandFrame 0x09 2 [p1, p2, p3, p4]
  | .setMouseKeycodeMode p1 p2 => commandFrame 0x0A 2 [p1, p2]
  | .setMouseThreshold p1 p2 => commandFrame 0x0B 2 [p1, p2]
  | .setMouseScale p1 p2 => commandFrame 0x0C 2 [p1, p2]
  | .interrogateMousePosition => commandFrame 0x0D 2 []
  | .loadMousePosition p1 p2 p3 p4 p5 => commandFrame 0x0E 2 [p1, p2, p3, p4, p5]
  | .setYAtBottom => commandFrame 0x0F 2 []
  | .setYAtTop => commandFrame 0x10 2 []
  | .resume => commandFrame 0x11 2 []
  | .disableMouse => commandFrame 0x12 2 []
  | .pauseOutput => commandFrame 0x13 2 []
  | .setJoystickEventReporting => commandFrame 0x14 2 []
  | .setJoystickInterrogationMode => commandFrame 0x15 2 []
  | .joystickInterrogate => commandFrame 0x16 2 []
  | .setJoystickMonitoring p1 => commandFrame 0x17 2 [p1]
  | .setFireButtonMonitoring => commandFrame 0x18 2 []
  | .setJoystickKeycodeMode p1 p2 p3 p4 p5 p6 => commandFrame 0x19 2 [p1, p2, p3, p4, p5, p6]
  | .disableJoysticks => commandFrame 0x1A 2 []
  | .timeOfDayClockSet p1 p2 p3 p4 p5 p6 => commandFrame 0x1B 2 [p1, p2, p3, p4, p5, p6]
  | .interrogateTimeOfDayClock => commandFrame 0x1C 2 []
  | .memoryLoad p1 p2 p3 => commandFrame 0x20 2 [p1, p2, p3]
  | .memoryRead p1 p2 => commandFrame 0x21 2 [p1, p2]
  | .controllerExecute p1 p2 => commandFrame 0x22 2 [p1, p2]
  | .ikbdReset p1 => commandFrame 0x80 2 [p1]
  | .statusInquiry87 => commandFrame 0x87 2 []
  | .statusInquiry88 => commandFrame 0x88 2 []
  | .statusInquiry89 => commandFrame 0x89 2 []
  | .statusInquiry8A => commandFrame 0x8A 2 []
  | .statusInquiry8B => commandFrame 0x8B 2 []
  | .statusInquiry8C => commandFrame 0x8C 2 []
  | .statusInquiry8F => commandFrame 0x8F 2 []
  | .statusInquiry90 => commandFrame 0x90 2 []
  | .statusInquiry92 => commandFrame 0x92 2 []
  | .statusInquiry94 => commandFrame 0x94 2 []
  | .statusInquiry95 => commandFrame 0x95 2 []
  | .statusInquiry99 => commandFrame 0x99 2 []
  | .statusInquiry9A => commandFrame 0x9A 2 []
  | .unknownFirstByte b => commandFrame b 2 []
  | .ymToneAFine v => commandFrame 0 3 [v]
  | .ymToneACoarse v => commandFrame 1 3 [v]
  | .ymToneBFine v => commandFrame 2 3 [v]
  | .ymToneBCoarse v => commandFrame 3 3 [v]
  | .ymToneCFine v => commandFrame 4 3 [v]
  | .ymToneCCoarse v => commandFrame 5 3 [v]
  | .ymNoisePeriod v => commandFrame 6 3 [v]
  | .ymMixerEnable v => commandFrame 7 3 [v]
  | .ymLevelA v => commandFrame 8 3 [v]
  | .ymLevelB v => commandFrame 9 3 [v]
  | .ymLevelC v => commandFrame 10 3 [v]
  | .ymEnvPeriodFine v => commandFrame 11 3 [v]
  | .ymEnvPeriodCoarse v => commandFrame 12 3 [v]
  | .ymEnvShape v => commandFrame 13 3 [v]
  | .ymPortA v => commandFrame 14 3 [v]
  | .ymPortB v => commandFrame 15 3 [v]
  | .iackL1 => commandFrame 1 4 []
  | .iackL2 => commandFrame 2 4 []
  | .iackL3 => commandFrame 3 4 []
  | .iackL4 => commandFrame 4 4 []
  | .iackL5 => commandFrame 5 4 []
  | .iackL6 => commandFrame 6 4 []
  | .iackL7 => commandFrame 7 4 []

/-- How many bytes the longest frame has (an IKBD command of 7 bytes). -/
def maxFrame : Nat := 9

/-- The bytes of a table word: the `nbits` bits of `w`, low byte first, then zeros up to the longest frame. -/
def tableBytes (nbits w : Nat) : List Byte :=
  (List.range (nbits / 8)).map (fun i => BitVec.ofNat 8 (w / 2 ^ (8 * i))) ++ List.replicate maxFrame 0

/-- The instruction the decoder reads from a table word (log 22). -/
def decodeTableWord (nbits w : Nat) : Option Instr :=
  match decode (tableBytes nbits w) with
  | .ok (i, _) => some i
  | .error _ => none

end Sys2Proof
end

