-- ==== Sys2Proof/Machine/State.lean ====
section
/-! DEFINITION. Machine/State.lean: every piece of state the spec gives the machine (10_state.md), as plain data, the
reasons a step can stop, and the state right after power-on (10_state.md R67..R75; 70_reset_and_hazards.md R490). -/

namespace Sys2Proof.Machine

/-- Why a step stops with a fault: the behaviour the spec itself names a fault (60_exceptions.md R468). -/
inductive Fault where
  /-- A double fault (R457), raised by taking an exception in Ops.lean. Safe: the 68000 halts there too. -/
  | cpuHalted
  /-- Resolution 2 or 3 at a visible line (45_video_shifter.md R411), raised by the shifter. Safe: ASE leaves the
  behaviour undefined and asks for an error. -/
  | videoHighRes
  deriving DecidableEq, Repr, Inhabited

/-- Why a step has no meaning (60_exceptions.md R468). -/
inductive Refusal where
  /-- Raised by an arm of exec whose instruction has no meaning yet. Safe. -/
  | notModelled (mnemonic : String)
  /-- The core met an event it has no meaning for (40_cpu_integration.md R187), raised by Cpu.lean. Safe. -/
  | coreError
  /-- READ TRACK or WRITE TRACK under `FDC_TRACK_CMDS = refuse` (43_wd1772_dma.md R324, R325). Safe. -/
  | fdcTrackCommand
  /-- A configuration the block cannot start with (70_reset_and_hazards.md R495), raised by step and by powerOn.
  Safe. -/
  | configError
  /-- The bytes of `ops` are no operation of the table; raised by step. Safe. -/
  | undecoded (e : DecodeError)
  /-- The state carries the mark `refused` (10_state.md R65); raised by step. Safe. -/
  | markedRefused
  deriving DecidableEq, Repr, Inhabited

/-- Memory: address and byte pairs, addresses strictly rising, no entry equal to what an unlisted address reads as
(Mem.lean says which key each memory's byte has, and what an unlisted one reads as). -/
abbrev Memory := List Host.Cell

/-- The 68000 (R32..R37), its STOP state (R467), what a group-0 frame needs of the instruction (R452), and the words at
the next two fetch addresses that the core may hold from before the last stores (20_memory.md R106; log 36). -/
structure Cpu where
  regs : CoreRegs
  ipl : BitVec 3
  clock : Nat
  stopped : Bool
  ir : Half
  ipc : Word
  berr : Bool
  ahead : List (Addr × Half)
  deriving DecidableEq, Repr, Inhabited

/-- The InterruptArbiter's flags (R38). -/
structure Arbiter where
  hbl : Bool
  vbl : Bool
  mfp : Bool
  deriving DecidableEq, Repr, Inhabited

/-- A timer's main counter and prescaler phase (R46). -/
structure Counter where
  cnt : Nat
  phase : Nat
  deriving DecidableEq, Repr, Inhabited

/-- The MFP68901 (R39..R47). -/
structure Mfp where
  gpip : Byte
  aer : Byte
  ddr : Byte
  iera : Byte
  ierb : Byte
  ipra : Byte
  iprb : Byte
  isra : Byte
  isrb : Byte
  imra : Byte
  imrb : Byte
  vr : Byte
  tacr : Byte
  tbcr : Byte
  tcdcr : Byte
  tadr : Byte
  tbdr : Byte
  tcdr : Byte
  tddr : Byte
  timerA : Counter
  timerB : Counter
  timerC : Counter
  timerD : Counter
  acc : Nat
  deriving DecidableEq, Repr, Inhabited

/-- A tone generator: its counter and square flip-flop (R50). -/
structure Tone where
  cnt : Nat
  sq : Bool
  deriving DecidableEq, Repr, Inhabited

/-- The YM2149 and the audio path (R48..R51). The filter's taps and the samples are encodings (log 15). -/
structure Ym where
  reg : Vector Byte 16
  sel : BitVec 4
  toneA : Tone
  toneB : Tone
  toneC : Tone
  ncnt : Nat
  rng : BitVec 17
  noise : Bool
  envPos : Nat
  envCnt : Int
  cyc : Nat
  racc : Nat
  xPrev : Config.FloatBits
  yPrev : Config.FloatBits
  ring : List Config.FloatBits
  last : Config.FloatBits
  deriving DecidableEq, Repr, Inhabited

/-- `wd.drive` (R56). -/
inductive Drive where
  | noDrive
  | driveA
  | driveB
  deriving DecidableEq, Repr, Inhabited

/-- `wd.step_dir` (R56): +1 or -1. -/
inductive StepDir where
  | inward
  | outward
  deriving DecidableEq, Repr, Inhabited

/-- The WD1772 and the DMA (R52..R56). -/
structure Wd where
  command : Byte
  status : Byte
  track : Byte
  sector : Byte
  data : Byte
  dmaMode : Half
  dmaCount : Byte
  dmaAddr : Addr
  dmaError : Bool
  prevDir : Bool
  drive : Drive
  side : BitVec 1
  head : Nat
  multi : Bool
  stepDir : StepDir
  deriving DecidableEq, Repr, Inhabited

/-- A FloppyImage (R57). -/
structure Floppy where
  payload : List Byte
  sides : Nat
  tracks : Nat
  spt : Nat
  bps : Nat
  writeProtected : Bool
  deriving DecidableEq, Repr, Inhabited

/-- The ACIA (R58..R60). -/
structure Acia where
  status : Byte
  control : Byte
  latch : Byte
  hasLatched : Bool
  queue : List Byte
  wait : Int
  deriving DecidableEq, Repr, Inhabited

/-- The IKBD (R61). -/
structure Ikbd where
  cmd : List Byte
  joy : Byte
  buttons : BitVec 2
  mouseOn : Bool
  joyOn : Bool
  deriving DecidableEq, Repr, Inhabited

/-- The video counter, the framebuffer, and how often `frame_complete` was raised (R62, R63). -/
structure Video where
  counter : Addr
  fb : List (List Word)
  frameComplete : Nat
  deriving DecidableEq, Repr, Inhabited

/-- The numbered actions of 46_frame_loop.md R431, and the end of a run after a shutdown (R440). -/
inductive Act where
  | latch | cpuMain | ymMain | mfpMain | cpuTail | ymTail | mfpTail | hbl | acia
  | writeBack | render | advance | eventTicks | vbl | complete | pace | ended
  deriving DecidableEq, Repr, Inhabited

/-- What a host asked the frame loop to do once its frame is over (R440). -/
inductive LoopRequest where
  | reset
  | shutdown
  deriving DecidableEq, Repr, Inhabited

/-- The frame loop (R64; 40_cpu_integration.md R173, R186): the next action, the line, the cycles the running batch
has used and the last batch's overshoot. -/
structure Loop where
  act : Act
  scanline : Nat
  running : Bool
  request : Option LoopRequest
  used : Nat
  excess : Nat
  deriving DecidableEq, Repr, Inhabited

/-- The outside world: host steps not yet taken, the turns to come, the samples of the last audio pull. -/
structure HostSide where
  inbox : List Config.HostStep
  turns : List Config.Turn
  audioOut : List Config.FloatBits
  deriving DecidableEq, Repr, Inhabited

/-- THE STATE. `params` never changes; `ops` holds the operations the core presents next; `bus` is the value the last
bus read or acknowledge returned; `draws` counts the free values used; `ramGen` names the draw of the RAM's contents;
`faults` and `refused` are the marks of R65. -/
structure State where
  params : Config.Params
  cpu : Cpu
  arb : Arbiter
  mfp : Mfp
  ym : Ym
  wd : Wd
  disk : Option Floppy
  acia : Acia
  ikbd : Ikbd
  video : Video
  loop : Loop
  mem : Memory
  ramGen : Nat
  host : HostSide
  ops : List Byte
  bus : Word
  draws : Nat
  faults : List Fault
  refused : Bool
  deriving DecidableEq, Repr

/-- The defaults of R17 and of the tables, with `FDC_TRACK_CMDS` refuse, and the values of log 5 for the four parameters
that have no default. -/
def defaultParams : Config.Params :=
  { ramSize := .k512, tosSize := .k192, hostRate := 44100, mouseSensX := 2, mouseSensY := 2,
    overshootCarry := false, mfpIprGatedByIer := true, ymSideInvert := false, paletteLayout := .nibble,
    envLoop := .from32, trackCmds := .refuse, msaSides := .minusOne, maxSpeed := false,
    envTable := .blocks, ikbdLen := ikbdLenDefault, audioFloat := .ieee }

/-- The parameters of `State.reset`: the defaults, but for `FDC_TRACK_CMDS`, for which it takes the other value R17 gives,
so that READ TRACK and WRITE TRACK run (log 6). -/
def resetParams : Config.Params := { defaultParams with trackCmds := .havoc }

/-- A long of the TOS image, big-endian (R83). -/
def tosLong (i : Nat) : Word :=
  (Config.tosByte i ++ Config.tosByte (i + 1)) ++ (Config.tosByte (i + 2) ++ Config.tosByte (i + 3))

/-- The CPU at reset (R68, R171), given the initial SSP and the reset PC. -/
def resetCpu (ssp pc : Word) : Cpu :=
  { regs := { d := Vector.replicate 8 0, a := Vector.replicate 7 0, usp := 0, ssp := ssp, pc := pc, sr := 0x2700 },
    ipl := 0, clock := 0, stopped := false, ir := 0, ipc := 0, berr := false, ahead := [] }

/-- The arbiter at reset (R69). -/
def resetArb : Arbiter := { hbl := false, vbl := false, mfp := false }

/-- A timer at reset (R70). -/
def resetCounter : Counter := { cnt := 256, phase := 0 }

/-- The MFP at reset (R70). -/
def resetMfp : Mfp :=
  { gpip := 0xFF, aer := 0, ddr := 0, iera := 0, ierb := 0, ipra := 0, iprb := 0, isra := 0, isrb := 0,
    imra := 0, imrb := 0, vr := 0x40, tacr := 0, tbcr := 0, tcdcr := 0, tadr := 0, tbdr := 0, tcdr := 0,
    tddr := 0, timerA := resetCounter, timerB := resetCounter, timerC := resetCounter, timerD := resetCounter,
    acc := 0 }

/-- A tone generator at reset (R71). -/
def resetTone : Tone := { cnt := 0, sq := false }

/-- The YM2149 at reset (R71): `reg[7] = 0xFF`, the LFSR 1, everything else 0. -/
def resetYm : Ym :=
  { reg := #v[0, 0, 0, 0, 0, 0, 0, 0xFF, 0, 0, 0, 0, 0, 0, 0, 0], sel := 0, toneA := resetTone,
    toneB := resetTone, toneC := resetTone, ncnt := 0, rng := 1, noise := false, envPos := 0, envCnt := 0,
    cyc := 0, racc := 0, xPrev := 0, yPrev := 0, ring := [], last := 0 }

/-- The WD1772 and DMA at reset (R72). -/
def resetWd : Wd :=
  { command := 0, status := 0, track := 0, sector := 0, data := 0, dmaMode := 0, dmaCount := 0, dmaAddr := 0,
    dmaError := false, prevDir := false, drive := .noDrive, side := 0, head := 0, multi := false,
    stepDir := .inward }

/-- The ACIA at reset (R73): status = TDRE. -/
def resetAcia : Acia :=
  { status := 0x02, control := 0, latch := 0, hasLatched := false, queue := [], wait := 0 }

/-- The IKBD at reset (R73). -/
def resetIkbd : Ikbd := { cmd := [], joy := 0, buttons := 0, mouseOn := false, joyOn := false }

/-- The framebuffer at reset (R74): 200 rows of 640 opaque black words. -/
def resetFb : List (List Word) := List.replicate 200 (List.replicate 640 0xFF000000#32)

/-- The video counter and framebuffer at reset (R74). -/
def resetVideo : Video := { counter := 0, fb := resetFb, frameComplete := 0 }

/-- The frame loop at reset (R74, R444): running, at its first action. -/
def resetLoop : Loop :=
  { act := .latch, scanline := 0, running := true, request := none, used := 0, excess := 0 }

/-- THE STATE AFTER POWER-ON (70_reset_and_hazards.md R490, R492), for the parameter TOS_IMAGE, with no disk. -/
def State.reset : State :=
  { params := resetParams
    cpu := resetCpu (tosLong 0) (tosLong 4)
    arb := resetArb
    mfp := resetMfp
    ym := resetYm
    wd := resetWd
    disk := none
    acia := resetAcia
    ikbd := resetIkbd
    video := resetVideo
    loop := resetLoop
    mem := []
    ramGen := 0
    host := { inbox := [], turns := [], audioOut := [] }
    ops := []
    bus := 0
    draws := 0
    faults := []
    refused := false }

end Sys2Proof.Machine
end

