-- ==== Sys2Proof/Machine/Mem.lean ====
section
/-! DEFINITION. Machine/Mem.lean: the one list that holds the three memories of 10_state.md R30, the decode of a bus
address (20_memory.md R82), the accesses without side effects (R96, R97), and the draws (00_scope.md R23).
The byte ram[i] has key i, rom[i] key TOS_BASE + i, io[i] key 0xFF8000 + i, so that ram[0..7], hidden behind the ROM
mirror, has keys of its own (log 4). -/

namespace Sys2Proof.Machine

/-- The first address of the I/O page (R30). -/
def ioBase : Nat := 0xFF8000

/-- What an unlisted key reads as: 0x00 in the I/O mirror (R67, D5); elsewhere no value known here, so that the byte
is the parameter TOS_IMAGE or a draw of RAM_INIT (powerOnByte). -/
def unlisted (k : Nat) : Option Byte := if ioBase ≤ k then some 0 else none

/-- The entry of a key. -/
def memFind : Memory → Nat → Option Byte
  | [], _ => none
  | (k0, v) :: t, k => if k0 = k then some v else memFind t k

/-- Set the byte of a key, keeping the canonical form: the value an unlisted key reads as removes the entry. -/
def memPut : Memory → Nat → Byte → Memory
  | [], k, v => if unlisted k = some v then [] else [(k, v)]
  | (k0, v0) :: t, k, v =>
    if k < k0 then (if unlisted k = some v then (k0, v0) :: t else (k, v) :: (k0, v0) :: t)
    else if k = k0 then (if unlisted k = some v then t else (k, v) :: t)
    else (k0, v0) :: memPut t k v

/-- Every key of a list is above `k`. -/
def keysAbove (k : Nat) : Memory → Bool
  | [] => true
  | (k0, _) :: t => decide (k < k0) && keysAbove k t

/-- THE CANONICAL FORM: keys strictly rising, no entry equal to what an unlisted key reads as. -/
def memWf : Memory → Bool
  | [] => true
  | (k, v) :: t => keysAbove k t && decide (unlisted k ≠ some v) && memWf t

/-- What a byte that nothing has written holds: the mirror's 0x00 (D5), the parameter TOS_IMAGE (R11), or the draw of
RAM_INIT (D4). -/
def powerOnByte (s : State) (k : Nat) : Byte :=
  if ioBase ≤ k then 0
  else if tosBase s.params ≤ k then Config.tosByte (k - tosBase s.params)
  else Config.ramByte s.ramGen k

/-- The byte stored at a key. -/
def storedByte (s : State) (k : Nat) : Byte :=
  match memFind s.mem k with
  | some v => v
  | none => powerOnByte s k

/-- Store a byte at a key. -/
def storeByte (k : Nat) (v : Byte) (s : State) : State := { s with mem := memPut s.mem k v }

/-- The regions of R82. -/
inductive Region where
  | rom (i : Nat)
  | ram (i : Nat)
  | io
  | unmapped
  deriving DecidableEq, Repr, Inhabited

/-- The byte decode of R82, first matching case. -/
def region (p : Config.Params) (a : Addr) : Region :=
  if a.toNat < 8 then .rom a.toNat
  else if a.toNat < ramBytes p then .ram a.toNat
  else if tosBase p ≤ a.toNat ∧ a.toNat < tosBase p + tosBytes p then .rom (a.toNat - tosBase p)
  else if ioBase ≤ a.toNat then .io
  else .unmapped

/-- `rom[i]`. -/
def romByte (s : State) (i : Nat) : Byte := storedByte s (tosBase s.params + i)

/-- `io[i]`. -/
def ioByte (s : State) (i : Nat) : Byte := storedByte s (ioBase + i)

/-- `Peek` of one byte: no handler, no bus error (R97). -/
def peekByte (s : State) (a : Addr) : Byte :=
  match region s.params a with
  | .rom i => romByte s i
  | .ram i => storedByte s i
  | .io => storedByte s a.toNat
  | .unmapped => 0xFF

/-- `Peek(a, 2)` (R97). -/
def peek16 (s : State) (a : Addr) : Half := be16 (peekByte s a) (peekByte s (a + 1))

/-- `RamRead(a)` (R96): 0xFF beyond RAM. -/
def ramRead (s : State) (a : Addr) : Byte :=
  if a.toNat < ramBytes s.params then storedByte s a.toNat else 0xFF

/-- `RamWrite(a, b)` (R96): nothing beyond RAM. -/
def ramWrite (a : Addr) (b : Byte) (s : State) : State :=
  if a.toNat < ramBytes s.params then storeByte a.toNat b s else s

/-- Forget every listed byte of RAM: under a fresh generation each is a new draw (43_wd1772_dma.md R324). -/
def dropRam (n : Nat) : Memory → Memory
  | [] => []
  | (k, v) :: t => if k < n then dropRam n t else (k, v) :: dropRam n t

/-- `draw()` (R23): the next free value, and the state that has used it. -/
def drawWord (s : State) : Word := Config.freeWord s.draws

/-- The state after a draw. -/
def nextDraw (s : State) : State := { s with draws := s.draws + 1 }

/-- Give a value back to the core on the bus (log 13). -/
def answer (v : Word) (s : State) : State := { s with bus := v }

/-- Give a byte back to the core. -/
def answer8 (v : Byte) (s : State) : State := answer (v.setWidth 32) s

/-- Give a 16-bit word back to the core. -/
def answer16 (v : Half) (s : State) : State := answer (v.setWidth 32) s

/-- Go on with the next state, or stop as before. -/
def andThen (o : Host.Outcome State Fault Refusal) (f : State → Host.Outcome State Fault Refusal) :
    Host.Outcome State Fault Refusal :=
  match o with
  | .next s => f s
  | .fault r => .fault r
  | .refused r => .refused r

end Sys2Proof.Machine
end

