-- ==== Sys2Proof/Machine/Operands.lean ====
section
/-! DEFINITION. Machine/Operands.lean: operand assembly (30_encoding.md R153): the fields of the device registers and
of the 68000's, and the registers an operand names. -/

namespace Sys2Proof.Machine

/-- The timers (41_mfp68901.md R200). -/
inductive Timer where
  | a | b | c | d
  deriving DecidableEq, Repr, Inhabited

/-- The mode field of a timer (30_encoding.md R138; 10_state.md R44, R45). -/
def timerMode (m : Mfp) : Timer → BitVec 4
  | .a => m.tacr.extractLsb' 0 4
  | .b => m.tbcr.extractLsb' 0 4
  | .c => m.tcdcr.extractLsb' 4 4
  | .d => m.tcdcr.extractLsb' 0 4

/-- The data register of a timer (R46). -/
def timerData (m : Mfp) : Timer → Byte
  | .a => m.tadr
  | .b => m.tbdr
  | .c => m.tcdr
  | .d => m.tddr

/-- The counter of a timer (R46). -/
def timerCounter (m : Mfp) : Timer → Counter
  | .a => m.timerA
  | .b => m.timerB
  | .c => m.timerC
  | .d => m.timerD

/-- Set the counter of a timer. -/
def setTimerCounter (m : Mfp) (t : Timer) (c : Counter) : Mfp :=
  match t with
  | .a => { m with timerA := c }
  | .b => { m with timerB := c }
  | .c => { m with timerC := c }
  | .d => { m with timerD := c }

/-- `chan(X)` (R200). -/
def timerChannel : Timer → Nat
  | .a => 13
  | .b => 8
  | .c => 5
  | .d => 4

/-- `reload(v)` (R46). -/
def reload (v : Byte) : Nat := if v = 0 then 256 else v.toNat

/-- The divisor of a delay mode 1..7 (R138, R218). -/
def delayDivisor (mode : BitVec 4) : Option Nat :=
  match mode.toNat with
  | 1 => some 4
  | 2 => some 10
  | 3 => some 16
  | 4 => some 50
  | 5 => some 64
  | 6 => some 100
  | 7 => some 200
  | _ => none

/-- `counting(X)` (R221): modes 1..7, and mode 8 on timers A and B. -/
def counting (m : Mfp) (t : Timer) : Bool :=
  (delayDivisor (timerMode m t)).isSome || (timerMode m t == 8 && (t == .a || t == .b))

/-- `dma_addr` with its high byte written (43_wd1772_dma.md R307). -/
def dmaAddrWithHi (a : Addr) (b : Byte) : Addr := b ++ a.extractLsb' 0 16

/-- `dma_addr` with its middle byte written (R307). -/
def dmaAddrWithMid (a : Addr) (b : Byte) : Addr := (a.extractLsb' 16 8 ++ b) ++ a.extractLsb' 0 8

/-- `dma_addr` with its low byte written, bit 0 forced low (R307). -/
def dmaAddrWithLo (a : Addr) (b : Byte) : Addr := a.extractLsb' 8 16 ++ (b &&& 0xFE#8)

/-- `fdc_reg(m) = (m[2] << 1) | m[1]` (43_wd1772_dma.md). -/
def fdcReg (m : Half) : BitVec 2 := m.extractLsb' 1 2

/-- `m[4]`: the sector count is addressed (R54). -/
def selectsCount (m : Half) : Bool := m.getLsbD 4

/-- `m[3]`: the HDC is addressed (R54). -/
def selectsHdc (m : Half) : Bool := m.getLsbD 3

/-- `per[A]` (42_ym2149.md R258). -/
def tonePeriodA (r : Vector Byte 16) : Nat := ((r[1].extractLsb' 0 4) ++ r[0]).toNat
/-- `per[B]` (R258). -/
def tonePeriodB (r : Vector Byte 16) : Nat := ((r[3].extractLsb' 0 4) ++ r[2]).toNat
/-- `per[C]` (R258). -/
def tonePeriodC (r : Vector Byte 16) : Nat := ((r[5].extractLsb' 0 4) ++ r[4]).toNat
/-- `noise_per` (R258). -/
def noisePeriod (r : Vector Byte 16) : Nat := (r[6].extractLsb' 0 5).toNat
/-- `env_per` (R258). -/
def envPeriod (r : Vector Byte 16) : Nat := (r[12] ++ r[11]).toNat

/-- `SR.S` (10_state.md R34). -/
def srS (sr : Half) : Bool := sr.getLsbD 13
/-- `SR.T` (R34). -/
def srT (sr : Half) : Bool := sr.getLsbD 15
/-- `SR[10:8]`, the interrupt mask (R34). -/
def srMask (sr : Half) : BitVec 3 := sr.extractLsb' 8 3
/-- A value as SR holds it: bits 14, 12, 11, 7, 6, 5 read 0 (R34). -/
def srValue (v : Half) : Half := v &&& 0xA71F#16
/-- SR with S set (R175). -/
def srSetS (sr : Half) (b : Bool) : Half := if b then sr ||| 0x2000#16 else sr &&& 0xDFFF#16
/-- SR with T cleared (R452, R459, R460). -/
def srClearT (sr : Half) : Half := sr &&& 0x7FFF#16
/-- SR with its mask set (R460). -/
def srSetMask (sr : Half) (l : BitVec 3) : Half := (sr &&& 0xF8FF#16) ||| (l.setWidth 16 <<< 8)

/-- A data register, numbered 0..7 (R32). -/
def getD (r : CoreRegs) (n : BitVec 3) : Word := r.d[n.toNat]'(n.isLt)
/-- Set a data register. -/
def setD (r : CoreRegs) (n : BitVec 3) (v : Word) : CoreRegs := { r with d := r.d.set n.toNat v n.isLt }
/-- The active stack pointer: A7 is SSP when S = 1 and USP when S = 0 (R32). -/
def getA7 (r : CoreRegs) : Word := if srS r.sr then r.ssp else r.usp
/-- An address register, numbered 0..7 (R32). -/
def getA (r : CoreRegs) (n : BitVec 3) : Word :=
  if h : n.toNat < 7 then r.a[n.toNat] else getA7 r
/-- Set the active stack pointer. -/
def setA7 (r : CoreRegs) (v : Word) : CoreRegs :=
  if srS r.sr then { r with ssp := v } else { r with usp := v }
/-- Set an address register. -/
def setA (r : CoreRegs) (n : BitVec 3) (v : Word) : CoreRegs :=
  if h : n.toNat < 7 then { r with a := r.a.set n.toNat v h } else setA7 r v

/-- The bus address of a CPU address (20_memory.md R81). -/
def busAddr (a : Word) : Addr := a.setWidth 24

/-- The bits of a data register that a value of a width takes the place of (the rest is kept). -/
def mergeReg (w : Width) (old v : Word) : Word :=
  match w with
  | .byte => old.extractLsb' 8 24 ++ v.extractLsb' 0 8
  | .word => old.extractLsb' 16 16 ++ v.extractLsb' 0 16
  | .long => v

/-- `sext_32` of an 8-bit displacement or immediate (R152). -/
def sext8 (v : Byte) : Word := v.signExtend 32

end Sys2Proof.Machine
end

