-- ==== Sys2Proof/Machine/Flags.lean ====
section
/-! DEFINITION. Machine/Flags.lean: every flag and status computation of the spec: the MFP's active channels and
request (41_mfp68901.md R224, R225), the CPU's IPL (40_cpu_integration.md R181), the DMA and WD1772 status words
(43_wd1772_dma.md R306, R316), and the condition codes of the 68000 forms of 30_encoding.md R152 (log 9). -/

namespace Sys2Proof.Machine

/-- A bank pair as one word: bit n is channel n (10_state.md R42; R200). -/
def bankWord (a b : Byte) : Half := a ++ b

/-- `active` of every channel (R224). -/
def mfpActive (m : Mfp) : Half :=
  bankWord m.ipra m.iprb &&& bankWord m.iera m.ierb &&& bankWord m.imra m.imrb
    &&& (if bit m.vr 3 then ~~~ bankWord m.isra m.isrb else 0xFFFF#16)

/-- The MFP request: some channel is active (R225). -/
def mfpRequest (m : Mfp) : Bool := mfpActive m != 0

/-- The highest channel of a set (channel 15 has the highest priority, R42). -/
def highestChannel (v : Half) : Option Nat :=
  [15, 14, 13, 12, 11, 10, 9, 8, 7, 6, 5, 4, 3, 2, 1, 0].find? fun n => v.getLsbD n

/-- The winner of an MFP acknowledge (R227): the highest active channel above the highest one in service. -/
def mfpWinner (m : Mfp) : Option Nat :=
  match highestChannel (mfpActive m), highestChannel (bankWord m.isra m.isrb) with
  | none, _ => none
  | some w, none => some w
  | some w, some h => if h < w then some w else none

/-- The IPL of the arbiter's flags (R181). -/
def iplOf (a : Arbiter) : BitVec 3 :=
  if a.mfp then 6 else if a.vbl then 4 else if a.hbl then 2 else 0

/-- The DMA status word (10_state.md R55; R306), with DRQ = 0. -/
def dmaStatus (w : Wd) : Half :=
  (if w.dmaError then 0#16 else 1#16) ||| (if w.dmaCount = 0 then 0#16 else 2#16)

/-- `type1_status()` (R316), given the head and the disk that `disk_ok` lets the drive see. -/
def type1Status (head : Nat) (disk : Option Floppy) : Byte :=
  0xA0#8 ||| (if head = 0 then 0x04#8 else 0#8)
    ||| (match disk with
      | none => 0#8
      | some d => 0x02#8 ||| (if d.writeProtected then 0x40#8 else 0#8))

/-- The sign bit of a value of a width. -/
def signBit (w : Width) (v : Word) : Bool :=
  match w with
  | .byte => v.getLsbD 7
  | .word => v.getLsbD 15
  | .long => v.getLsbD 31

/-- Is a value of a width zero? -/
def isZero (w : Width) (v : Word) : Bool :=
  match w with
  | .byte => v.extractLsb' 0 8 == 0
  | .word => v.extractLsb' 0 16 == 0
  | .long => v == 0

/-- The condition codes as bits 4..0 of SR: X, N, Z, V, C (10_state.md R34). -/
def ccr (x n z v c : Bool) : BitVec 5 :=
  BitVec.ofBool x ++ BitVec.ofBool n ++ BitVec.ofBool z ++ BitVec.ofBool v ++ BitVec.ofBool c

/-- SR with its condition codes replaced. -/
def srWithCcr (sr : Half) (c : BitVec 5) : Half := (sr &&& 0xFFE0#16) ||| c.setWidth 16

/-- MOVE and MOVEQ: N and Z of the value, V and C cleared, X kept (log 9). -/
def srMove (w : Width) (v : Word) (sr : Half) : Half :=
  srWithCcr sr (ccr (sr.getLsbD 4) (signBit w v) (isZero w v) false false)

/-- BTST: Z is the complement of the bit, the rest is kept (log 9). -/
def srBtst (b : Bool) (sr : Half) : Half := if b then sr &&& 0xFFFB#16 else sr ||| 0x0004#16

/-- ADDQ.L #1: X and C the carry, V the overflow, N and Z of the sum (log 9). -/
def srAddq1 (old : Word) (sr : Half) : Half :=
  srWithCcr sr (ccr (old == 0xFFFFFFFF#32) (signBit .long (old + 1)) (old + 1 == 0)
    (old == 0x7FFFFFFF#32) (old == 0xFFFFFFFF#32))

end Sys2Proof.Machine
end

