-- ==== Sys2Proof/Machine/Mfp.lean ====
section
/-! DEFINITION. Machine/Mfp.lean: the InterruptArbiter (40_cpu_integration.md R180, R181) and the MFP68901's own
operations (41_mfp68901.md): the request line, raising a channel, the GPIP lines, the timers, the acknowledge, and
the reads and writes of its registers. -/

namespace Sys2Proof.Machine

/-- Recompute the CPU's IPL from the arbiter's flags (R181). -/
def recomputeIpl (s : State) : State := { s with cpu := { s.cpu with ipl := iplOf s.arb } }

/-- `raise_hbl()` (R180). -/
def raiseHbl (s : State) : State := recomputeIpl { s with arb := { s.arb with hbl := true } }

/-- `raise_vbl()` (R180). -/
def raiseVbl (s : State) : State := recomputeIpl { s with arb := { s.arb with vbl := true } }

/-- `UpdateIRQ()` (R226). -/
def updateIrq (s : State) : State := recomputeIpl { s with arb := { s.arb with mfp := mfpRequest s.mfp } }

/-- An MFP change followed by `UpdateIRQ()`. -/
def setMfpIrq (m : Mfp) (s : State) : State := updateIrq { s with mfp := m }

/-- The mask of channel `n` in a bank pair's word (R200). -/
def channelMask (n : Nat) : Half := 1#16 <<< n

/-- `IPR[n] <- 1`. -/
def setIpr (m : Mfp) (n : Nat) : Mfp :=
  let w := bankWord m.ipra m.iprb ||| channelMask n
  { m with ipra := hi8 w, iprb := lo8 w }

/-- `IPR[n] <- 0`. -/
def clearIpr (m : Mfp) (n : Nat) : Mfp :=
  let w := bankWord m.ipra m.iprb &&& ~~~ channelMask n
  { m with ipra := hi8 w, iprb := lo8 w }

/-- `ISR[n] <- 1`. -/
def setIsr (m : Mfp) (n : Nat) : Mfp :=
  let w := bankWord m.isra m.isrb ||| channelMask n
  { m with isra := hi8 w, isrb := lo8 w }

/-- `IER[n]` (R200). -/
def ierBit (m : Mfp) (n : Nat) : Bool := (bankWord m.iera m.ierb).getLsbD n

/-- `raise(n)` (R220): under the gating a disabled channel's request is lost. -/
def raiseChannel (n : Nat) (s : State) : State :=
  if s.params.mfpIprGatedByIer && !ierBit s.mfp n then updateIrq s
  else setMfpIrq (setIpr s.mfp n) s

/-- The GPIP lines a device drives (R222): 4 the ACIA, 5 the FDC. -/
inductive GpipLine where
  | acia
  | fdc
  deriving DecidableEq, Repr, Inhabited

/-- The GPIP bit of a line. -/
def lineBit : GpipLine → Nat
  | .acia => 4
  | .fdc => 5

/-- The channel a line's edge raises. -/
def lineChannel : GpipLine → Nat
  | .acia => 6
  | .fdc => 7

/-- A byte with one bit set to a value. -/
def withBit (v : Byte) (i : Nat) (b : Bool) : Byte :=
  if b then v ||| (1#8 <<< i) else v &&& ~~~ (1#8 <<< i)

/-- `set_gpip(bit, level)` (R222): AER bit 1 triggers on the rising edge, 0 on the falling one. -/
def setGpip (l : GpipLine) (level : Bool) (s : State) : State :=
  let old := bit s.mfp.gpip (lineBit l)
  let s1 := { s with mfp := { s.mfp with gpip := withBit s.mfp.gpip (lineBit l) level } }
  let edge := if bit s.mfp.aer (lineBit l) then !old && level else old && !level
  updateIrq (if edge then raiseChannel (lineChannel l) s1 else s1)

/-- The counter after `dec` decrements, reloaded by `r` while it is not positive, and whether it was reloaded: the
loop of R218 and R219 in closed form (log 25). -/
def countDown (cnt dec r : Nat) : Nat × Bool :=
  if dec < cnt then (cnt - dec, false) else (r - (dec - cnt) % r, true)

/-- Set a timer's counter, and raise its channel if it was reloaded. -/
def storeCount (t : Timer) (phase : Nat) (c : Nat × Bool) (s : State) : State :=
  let s1 := { s with mfp := setTimerCounter s.mfp t { cnt := c.1, phase := phase } }
  if c.2 then raiseChannel (timerChannel t) s1 else s1

/-- `tick_delay(X, ticks)` (R218), for a timer in a delay mode; otherwise nothing (R221). -/
def tickDelay (t : Timer) (ticks : Nat) (s : State) : State :=
  match delayDivisor (timerMode s.mfp t) with
  | none => s
  | some div =>
    let c := timerCounter s.mfp t
    let p := c.phase + ticks
    storeCount t (p % div) (countDown c.cnt (p / div) (reload (timerData s.mfp t))) s

/-- Set the accumulator (10_state.md R47). -/
def setAcc (n : Nat) (s : State) : State := { s with mfp := { s.mfp with acc := n } }

/-- `update_timers(cycles)` (R217): the rational accumulator, then the timers in the order A, B, C, D. -/
def updateTimers (cycles : Nat) (s : State) : State :=
  let acc := cycles * Config.mfpHz + s.mfp.acc
  let ticks := acc / Config.cpuHz
  let s1 := setAcc (acc % Config.cpuHz) s
  tickDelay .d ticks (tickDelay .c ticks (tickDelay .b ticks (tickDelay .a ticks s1)))

/-- `tick_event_count_a()` and `tick_event_count_b()` (R219): one event, for a timer in mode 8. -/
def tickEvent (t : Timer) (s : State) : State :=
  if timerMode s.mfp t = 8 then
    let c := timerCounter s.mfp t
    storeCount t c.phase (countDown c.cnt 1 (reload (timerData s.mfp t))) s
  else s

/-- The MFP state after an acknowledge won by channel `w` (R227). -/
def mfpAcked (m : Mfp) (w : Nat) : Mfp :=
  let m1 := clearIpr m w
  if bit m.vr 3 then setIsr m1 w else m1

/-- `mfp_iack()` (R227): the vector, and the state; with no winner 0x18 and no change (R228). -/
def mfpIack (s : State) : Byte × State :=
  match mfpWinner s.mfp with
  | none => (0x18, s)
  | some w => ((s.mfp.vr &&& 0xF0#8) ||| BitVec.ofNat 8 w, setMfpIrq (mfpAcked s.mfp w) s)

/-- The value of a timer data register read (R214): a counter of 256 reads 0x00. -/
def timerReadback (m : Mfp) (t : Timer) : Byte := BitVec.ofNat 8 (timerCounter m t).cnt

/-- The reads of the 19 registers (R201..R216): none has a side effect. -/
def mfpRead (m : Mfp) : MfpReg → Byte
  | .gpip => m.gpip
  | .aer => m.aer
  | .ddr => m.ddr
  | .iera => m.iera
  | .ierb => m.ierb
  | .ipra => m.ipra
  | .iprb => m.iprb
  | .isra => m.isra
  | .isrb => m.isrb
  | .imra => m.imra
  | .imrb => m.imrb
  | .vr => m.vr
  | .tacr => m.tacr
  | .tbcr => m.tbcr
  | .tcdcr => m.tcdcr
  | .tadr => timerReadback m .a
  | .tbdr => timerReadback m .b
  | .tcdr => timerReadback m .c
  | .tddr => timerReadback m .d

/-- GPIP write (R202): only output lines change, and no edge arises. -/
def writeGpip (v : Byte) (s : State) : State :=
  { s with mfp := { s.mfp with gpip := (s.mfp.gpip &&& ~~~ s.mfp.ddr) ||| (v &&& s.mfp.ddr) } }

/-- AER write (R203). -/
def writeAer (v : Byte) (s : State) : State := { s with mfp := { s.mfp with aer := v } }

/-- DDR write (R204). -/
def writeDdr (v : Byte) (s : State) : State := { s with mfp := { s.mfp with ddr := v } }

/-- IERA write (R206): under the gating it discards the pending requests it disables. -/
def writeIera (v : Byte) (s : State) : State :=
  setMfpIrq { s.mfp with iera := v, ipra := if s.params.mfpIprGatedByIer then s.mfp.ipra &&& v else s.mfp.ipra } s

/-- IERB write (R206). -/
def writeIerb (v : Byte) (s : State) : State :=
  setMfpIrq { s.mfp with ierb := v, iprb := if s.params.mfpIprGatedByIer then s.mfp.iprb &&& v else s.mfp.iprb } s

/-- IPRA write (R208): it ANDs. -/
def writeIpra (v : Byte) (s : State) : State := setMfpIrq { s.mfp with ipra := s.mfp.ipra &&& v } s

/-- IPRB write (R208). -/
def writeIprb (v : Byte) (s : State) : State := setMfpIrq { s.mfp with iprb := s.mfp.iprb &&& v } s

/-- ISRA write (R210): it ANDs (the software end of interrupt). -/
def writeIsra (v : Byte) (s : State) : State := setMfpIrq { s.mfp with isra := s.mfp.isra &&& v } s

/-- ISRB write (R210). -/
def writeIsrb (v : Byte) (s : State) : State := setMfpIrq { s.mfp with isrb := s.mfp.isrb &&& v } s

/-- IMRA write (R211). -/
def writeImra (v : Byte) (s : State) : State := setMfpIrq { s.mfp with imra := v } s

/-- IMRB write (R211). -/
def writeImrb (v : Byte) (s : State) : State := setMfpIrq { s.mfp with imrb := v } s

/-- VR write (R213): bit 3 = 0 clears both in-service registers. -/
def writeVr (v : Byte) (s : State) : State :=
  setMfpIrq (if bit v 3 then { s.mfp with vr := v } else { s.mfp with vr := v, isra := 0, isrb := 0 }) s

/-- TACR write (R216): the counter and the phase stay. -/
def writeTacr (v : Byte) (s : State) : State := { s with mfp := { s.mfp with tacr := v } }

/-- TBCR write (R216). -/
def writeTbcr (v : Byte) (s : State) : State := { s with mfp := { s.mfp with tbcr := v } }

/-- TCDCR write (R216). -/
def writeTcdcr (v : Byte) (s : State) : State := { s with mfp := { s.mfp with tcdcr := v } }

/-- Set a timer's data register (R46). -/
def setTimerData (m : Mfp) (t : Timer) (v : Byte) : Mfp :=
  match t with
  | .a => { m with tadr := v }
  | .b => { m with tbdr := v }
  | .c => { m with tcdr := v }
  | .d => { m with tddr := v }

/-- Timer data write (R215): it loads the counter only when the timer is not counting. -/
def writeTimerData (t : Timer) (v : Byte) (s : State) : State :=
  let m := setTimerData s.mfp t v
  { s with mfp := if counting s.mfp t then m
                  else setTimerCounter m t { timerCounter s.mfp t with cnt := reload v } }

/-- The writes of the 19 registers (R202..R216). -/
def mfpWrite (r : MfpReg) (v : Byte) (s : State) : State :=
  match r with
  | .gpip => writeGpip v s
  | .aer => writeAer v s
  | .ddr => writeDdr v s
  | .iera => writeIera v s
  | .ierb => writeIerb v s
  | .ipra => writeIpra v s
  | .iprb => writeIprb v s
  | .isra => writeIsra v s
  | .isrb => writeIsrb v s
  | .imra => writeImra v s
  | .imrb => writeImrb v s
  | .vr => writeVr v s
  | .tacr => writeTacr v s
  | .tbcr => writeTbcr v s
  | .tcdcr => writeTcdcr v s
  | .tadr => writeTimerData .a v s
  | .tbdr => writeTimerData .b v s
  | .tcdr => writeTimerData .c v s
  | .tddr => writeTimerData .d v s

end Sys2Proof.Machine
end

