-- ==== Sys2Proof/Machine/Acia.lean ====
section
/-! DEFINITION. Machine/Acia.lean: the ACIA's registers, its receive pacing, the IKBD command parser and the host's
event packets (44_acia_ikbd.md). -/

namespace Sys2Proof.Machine

/-- `push(acia.queue, bytes)`. -/
def pushQueue (bs : List Byte) (s : State) : State :=
  { s with acia := { s.acia with queue := s.acia.queue ++ bs } }

/-- `master_reset()` (R361). -/
def aciaMasterReset (s : State) : State :=
  setGpip .acia true { s with acia := { s.acia with
    latch := 0, hasLatched := false, status := 0x02, wait := 0 } }

/-- Control write (R361). -/
def aciaControlWrite (v : Byte) (s : State) : State :=
  let s1 := { s with acia := { s.acia with control := v } }
  if v &&& 0x03#8 = 0x03#8 then aciaMasterReset s1 else s1

/-- Data read (R362): the latch, and the state with RDRF, IRQ, OVRN and FE cleared and GPIP4 high. -/
def aciaDataRead (s : State) : Byte × State :=
  (s.acia.latch,
   setGpip .acia true { s with acia := { s.acia with
     hasLatched := false, status := s.acia.status &&& 0x4E#8 } })

/-- Latch a byte taken from the queue (R365). -/
def aciaLatch (b : Byte) (t : List Byte) (s : State) : State :=
  setGpip .acia false { s with acia := { s.acia with
    latch := b, hasLatched := true, queue := t, status := s.acia.status ||| 0x81#8,
    wait := (Config.cyclesPerByte : Int) } }

/-- `acia.sync(elapsed)` (R365): at most one byte is latched. -/
def aciaSync (elapsed : Nat) (s : State) : State :=
  if s.acia.hasLatched then s
  else match s.acia.queue with
    | [] => { s with acia := { s.acia with wait := 0 } }
    | b :: t =>
      if s.acia.wait - elapsed ≤ 0 then aciaLatch b t s
      else { s with acia := { s.acia with wait := s.acia.wait - elapsed } }

/-- Set the mouse enable (R372..R374). -/
def setMouse (b : Bool) (s : State) : State := { s with ikbd := { s.ikbd with mouseOn := b } }

/-- Set the joystick enable (R375). -/
def setJoy (b : Bool) (s : State) : State := { s with ikbd := { s.ikbd with joyOn := b } }

/-- Empty the command-assembly buffer (R370). -/
def clearCmd (s : State) : State := { s with ikbd := { s.ikbd with cmd := [] } }

/-- SET JOYSTICK EVENT REPORTING (R375). -/
def ikbdJoyEvents (s : State) : State := pushQueue [0xFF, s.ikbd.joy] (setJoy true s)

/-- JOYSTICK INTERROGATE (R375). -/
def ikbdJoyInterrogate (s : State) : State := pushQueue [0xFD, 0, s.ikbd.joy] s

/-- INTERROGATE TIME-OF-DAY CLOCK (R377). -/
def ikbdClock (s : State) : State := pushQueue [0xFC, 0, 0, 0, 0, 0, 0] s

/-- RESET with its second byte (R376). -/
def ikbdResetCmd (p : Byte) (s : State) : State :=
  if p = 0x01 then
    pushQueue [0xF0, 0xF1] (setJoy true (setMouse true { s with acia := { s.acia with queue := [] } }))
  else s

/-- `execute(cmd)` (R371..R377): every command without a listed effect is accepted and ignored. -/
def ikbdExecute (cmd : List Byte) (s : State) : State :=
  match cmd with
  | [] => s
  | f :: ps =>
    if f = 0x08 then setMouse true s
    else if f = 0x09 ∨ f = 0x0A ∨ f = 0x12 then setMouse false s
    else if f = 0x14 then ikbdJoyEvents s
    else if f = 0x15 ∨ f = 0x1A then setJoy false s
    else if f = 0x16 then ikbdJoyInterrogate s
    else if f = 0x1C then ikbdClock s
    else if f = 0x80 then ikbdResetCmd (ps.headD 0) s
    else s

/-- `ikbd_receive(b)` (R370). -/
def ikbdReceive (b : Byte) (s : State) : State :=
  let cmd := s.ikbd.cmd ++ [b]
  match ikbdLenOf s.params (cmd.headD 0) with
  | none => clearCmd s
  | some n =>
    if cmd.length = n then clearCmd (ikbdExecute cmd s)
    else { s with ikbd := { s.ikbd with cmd := cmd } }

/-- `clamp(trunc(h / sens), -127, 127)` as a byte (R380): the division rounds toward zero. -/
def mouseDelta (h : Int) (sens : Nat) : Byte := BitVec.ofInt 8 (max (-127) (min 127 (h.tdiv sens)))

/-- The header byte of a mouse packet (30_encoding.md R146). -/
def mouseHeader (buttons : BitVec 2) : Byte := 0xF8#8 ||| buttons.setWidth 8

/-- `host_mouse_move(hx, hy)` (R380). -/
def hostMouseMove (hx hy : Int) (s : State) : State :=
  if s.ikbd.mouseOn then
    pushQueue [mouseHeader s.ikbd.buttons, mouseDelta hx s.params.mouseSensX, mouseDelta hy s.params.mouseSensY] s
  else s

/-- `host_mouse_button(left, right)` (R381). -/
def hostMouseButton (left right : Bool) (s : State) : State :=
  let b := BitVec.ofBool left ++ BitVec.ofBool right
  let s1 := { s with ikbd := { s.ikbd with buttons := b } }
  if s.ikbd.mouseOn then pushQueue [mouseHeader b, 0, 0] s1 else s1

/-- The bit of a joystick input (R382). -/
def joyBit : Config.JoyInput → Nat
  | .up => 0
  | .down => 1
  | .left => 2
  | .right => 3
  | .fire => 7

/-- The mouse buttons after a joystick input (R382): fire is routed to the right button. -/
def fireButtons (input : Config.JoyInput) (pressed : Bool) (buttons : BitVec 2) : BitVec 2 :=
  if input = .fire then buttons.extractLsb' 1 1 ++ BitVec.ofBool pressed else buttons

/-- `host_joystick(input, pressed)` (R382). -/
def hostJoystick (input : Config.JoyInput) (pressed : Bool) (s : State) : State :=
  let new := withBit s.ikbd.joy (joyBit input) pressed
  let s1 := if s.ikbd.joyOn && new != s.ikbd.joy then pushQueue [0xFF, new] s else s
  { s1 with ikbd := { s1.ikbd with joy := new, buttons := fireButtons input pressed s1.ikbd.buttons } }

/-- `host_key(scancode, down)` (R383). -/
def hostKey (scancode : Byte) (down : Bool) (s : State) : State :=
  let c := Config.keymap scancode
  pushQueue [if down then c else c ||| 0x80#8] s

end Sys2Proof.Machine
end

