-- ==== Sys2Proof/Machine/Wd.lean ====
section
/-! DEFINITION. Machine/Wd.lean: the WD1772 command engine, its DMA and its registers (43_wd1772_dma.md). A command
completes within the write that gives it (R310). -/

namespace Sys2Proof.Machine

/-- Change the WD1772. -/
def setWd (w : Wd) (s : State) : State := { s with wd := w }

/-- The disk of `disk_ok`: drive A is selected and holds one. -/
def driveDisk (s : State) : Option Floppy :=
  match s.wd.drive with
  | .driveA => s.disk
  | .noDrive | .driveB => none

/-- `dma_put(b)` (R309). -/
def dmaPut (b : Byte) (s : State) : State :=
  let s1 := ramWrite s.wd.dmaAddr b s
  { s1 with wd := { s1.wd with dmaAddr := s1.wd.dmaAddr + 1 } }

/-- `dma_put` of each byte of a list. -/
def dmaPutAll : List Byte → State → State
  | [], s => s
  | b :: t, s => dmaPutAll t (dmaPut b s)

/-- `dma_get()` n times (R309): the bytes, first to last. -/
def dmaGetAll : Nat → State → List Byte × State
  | 0, s => ([], s)
  | n + 1, s =>
    let b := ramRead s s.wd.dmaAddr
    let r := dmaGetAll n { s with wd := { s.wd with dmaAddr := s.wd.dmaAddr + 1 } }
    (b :: r.1, r.2)

/-- `complete()` (R328). -/
def wdComplete (s : State) : State :=
  setGpip .fdc false { s with wd := { s.wd with status := s.wd.status &&& 0xFE#8, multi := false } }

/-- Leave a status, then `complete()`. -/
def finishWith (st : Byte) (s : State) : State := wdComplete { s with wd := { s.wd with status := st } }

/-- `fail(s)` (R322). -/
def wdFail (st : Byte) (s : State) : State :=
  wdComplete { s with wd := { s.wd with status := st, dmaError := true, multi := false } }

/-- The start of every command write (R310): the command byte, INTRQ released, BUSY. -/
def wdBegin (c : Byte) (s : State) : State :=
  let s1 := setGpip .fdc true { s with wd := { s.wd with command := c } }
  { s1 with wd := { s1.wd with status := s1.wd.status ||| 0x01#8 } }

/-- Leave the type I status (R316), then `complete()`. -/
def finishType1 (s : State) : State := finishWith (type1Status s.wd.head (driveDisk s)) s

/-- RESTORE (R311). -/
def cmdRestore (s : State) : State := finishType1 { s with wd := { s.wd with head := 0, track := 0 } }

/-- The last head position (R312, R313): `tracks - 1`, or 255 with no disk inserted. For an image of no tracks, where the
rules' -1 lies below any head position (10_state.md R56), it is 0, the model's choice (log 39). -/
def headLimit (s : State) : Nat :=
  match s.disk with
  | some d => d.tracks - 1
  | none => 255

/-- SEEK (R312). -/
def cmdSeek (s : State) : State :=
  finishType1 { s with wd := { s.wd with head := min s.wd.data.toNat (headLimit s), track := s.wd.data } }

/-- The head after a step, kept in 0..`hi` (R313). -/
def stepHead (d : StepDir) (head hi : Nat) : Nat :=
  match d with
  | .inward => min (head + 1) hi
  | .outward => min (head - 1) hi

/-- The track register after a step with the update flag (R313). -/
def stepTrack (d : StepDir) (track : Byte) : Byte :=
  match d with
  | .inward => track + 1
  | .outward => track - 1

/-- `step(d, u)` (R313). -/
def doStep (d : StepDir) (u : Bool) (s : State) : State :=
  finishType1 { s with wd := { s.wd with
    head := stepHead d s.wd.head (headLimit s)
    track := if u then stepTrack d s.wd.track else s.wd.track } }

/-- STEP (R313): the last direction again. -/
def cmdStep (u : Bool) (s : State) : State := doStep s.wd.stepDir u s

/-- STEP-IN (R314) and STEP-OUT (R315): the direction is latched, then the step. -/
def cmdStepDir (d : StepDir) (u : Bool) (s : State) : State :=
  doStep d u { s with wd := { s.wd with stepDir := d } }

/-- `lba()` (R320). -/
def lba (w : Wd) (d : Floppy) : Int :=
  ((w.head * d.sides + w.side.toNat) * d.spt : Nat) + ((w.sector.toNat : Int) - 1)

/-- The byte offset of the selected sector, when the image holds it whole (R319). -/
def sectorOffset (w : Wd) (d : Floppy) : Option Nat :=
  let l := lba w d
  if l < 0 ∨ d.payload.length < (l.toNat + 1) * d.bps then none else some (l.toNat * d.bps)

/-- `read_one()` (R319): none on an overrun. -/
def readOne (d : Floppy) (s : State) : Option State :=
  match sectorOffset s.wd d with
  | none => none
  | some off => some (dmaPutAll ((d.payload.drop off).take d.bps) s)

/-- An image with the bytes at an offset replaced. -/
def patchPayload (d : Floppy) (off : Nat) (bs : List Byte) : Floppy :=
  { d with payload := d.payload.take off ++ bs ++ d.payload.drop (off + bs.length) }

/-- `write_one()` (R321): none on an overrun. The image of drive A changes in place. -/
def writeOne (d : Floppy) (s : State) : Option State :=
  match sectorOffset s.wd d with
  | none => none
  | some off =>
    let r := dmaGetAll d.bps s
    some { r.2 with disk := some (patchPayload d off r.1) }

/-- Set the multi-sector flag (R56). -/
def setMulti (b : Bool) (s : State) : State := { s with wd := { s.wd with multi := b } }

/-- READ SECTOR single (R317). -/
def cmdReadSector (s0 : State) : State :=
  let s := setMulti false s0
  match driveDisk s with
  | none => wdFail 0x10 s
  | some d =>
    match readOne d s with
    | none => wdFail 0x10 s
    | some s1 =>
      finishWith 0x00 { s1 with wd := { s1.wd with
        dmaCount := if s1.wd.dmaCount = 0 then 0 else s1.wd.dmaCount - 1 } }

/-- The count and the sector register after one sector of a multiple command (R318). -/
def nextSector (spt : Nat) (s : State) : State :=
  { s with wd := { s.wd with
    dmaCount := s.wd.dmaCount - 1
    sector := BitVec.ofNat 8 (s.wd.sector.toNat % spt + 1) } }

/-- The sectors of READ SECTOR multiple (R318): the state, and whether all `n` were moved. -/
def readMany (d : Floppy) : Nat → State → Bool × State
  | 0, s => (true, s)
  | n + 1, s =>
    match readOne d s with
    | none => (false, s)
    | some s1 => readMany d n (nextSector d.spt s1)

/-- How a multiple command ends (R318). -/
def finishMany (r : Bool × State) : State := if r.1 then finishWith 0x00 r.2 else wdFail 0x10 r.2

/-- READ SECTOR multiple (R318). -/
def cmdReadMulti (s0 : State) : State :=
  let s := setMulti true s0
  match driveDisk s with
  | none => wdFail 0x10 s
  | some d => finishMany (readMany d s.wd.dmaCount.toNat s)

/-- WRITE SECTOR single (R321). -/
def cmdWriteSector (s0 : State) : State :=
  let s := setMulti false s0
  match driveDisk s with
  | none => wdFail 0x10 s
  | some d =>
    if d.writeProtected then wdFail 0x40 s
    else match writeOne d s with
      | none => wdFail 0x10 s
      | some s1 =>
        finishWith 0x00 { s1 with wd := { s1.wd with
          dmaCount := if s1.wd.dmaCount = 0 then 0 else s1.wd.dmaCount - 1 } }

/-- The sectors of WRITE SECTOR multiple (R321). Each one is written to the image as the ones before left it. -/
def writeMany : Nat → State → Bool × State
  | 0, s => (true, s)
  | n + 1, s =>
    match driveDisk s with
    | none => (false, s)
    | some d =>
      match writeOne d s with
      | none => (false, s)
      | some s1 => writeMany n (nextSector d.spt s1)

/-- WRITE SECTOR multiple (R321). -/
def cmdWriteMulti (s0 : State) : State :=
  let s := setMulti true s0
  match driveDisk s with
  | none => wdFail 0x10 s
  | some d =>
    if d.writeProtected then wdFail 0x40 s else finishMany (writeMany s.wd.dmaCount.toNat s)

/-- The synthetic ID field of READ ADDRESS (R323). -/
def idField (w : Wd) : List Byte := [BitVec.ofNat 8 w.head, w.side.setWidth 8, w.sector, 2, 0, 0]

/-- READ ADDRESS (R323). -/
def cmdReadAddress (s : State) : State :=
  match driveDisk s with
  | none => wdFail 0x10 s
  | some _ => finishWith 0x00 (dmaPutAll (idField s.wd) s)

/-- FORCE INTERRUPT (R326): no completion pulse. -/
def cmdForceInterrupt (s : State) : State :=
  setGpip .fdc true { s with wd := { s.wd with status := s.wd.status &&& 0xFE#8, multi := false } }

/-- The registers a track command leaves as draws under `havoc` (R324, R325; log 31): four free values. -/
def havocRegs (s : State) : State :=
  { s with
    draws := s.draws + 4
    wd := { s.wd with
      status := (Config.freeWord s.draws).setWidth 8
      dmaAddr := (Config.freeWord (s.draws + 1)).setWidth 24
      dmaCount := (Config.freeWord (s.draws + 2)).setWidth 8
      dmaError := (Config.freeWord (s.draws + 3)).getLsbD 0 } }

/-- Every byte of RAM a new draw (R324): the listed bytes are forgotten and the generation is a fresh one. -/
def havocRam (s : State) : State :=
  { s with mem := dropRam (ramBytes s.params) s.mem, ramGen := s.ramGen + 1 }

/-- `n` draws as bytes. -/
def drawBytes : Nat → State → List Byte × State
  | 0, s => ([], s)
  | n + 1, s =>
    let r := drawBytes n (nextDraw s)
    ((drawWord s).setWidth 8 :: r.1, r.2)

/-- Every byte of the image track at the current head and side a draw (R325), where a disk is in drive A, whichever
drive is selected: only drive A holds one (10_state.md R57). -/
def havocTrack (s : State) : State :=
  match s.disk with
  | none => s
  | some d =>
    let off := (s.wd.head * d.sides + s.wd.side.toNat) * d.spt * d.bps
    let n := min (d.spt * d.bps) (d.payload.length - off)
    let r := drawBytes n s
    { r.2 with disk := some (patchPayload d off r.1) }

/-- READ TRACK (R324). -/
def cmdReadTrack (s : State) : Host.Outcome State Fault Refusal :=
  match s.params.trackCmds with
  | .refuse => .refused .fdcTrackCommand
  | .havoc => .next (havocRam (havocRegs (wdComplete s)))

/-- WRITE TRACK (R325). -/
def cmdWriteTrack (s : State) : Host.Outcome State Fault Refusal :=
  match s.params.trackCmds with
  | .refuse => .refused .fdcTrackCommand
  | .havoc => .next (havocTrack (havocRegs (wdComplete s)))

/-- `command_write(c)` (R310): the command of the top nibble (30_encoding.md R144). -/
def commandWrite (c : Byte) (s0 : State) : Host.Outcome State Fault Refusal :=
  let s := wdBegin c s0
  match (c.extractLsb' 4 4).toNat with
  | 0 => .next (cmdRestore s)
  | 1 => .next (cmdSeek s)
  | 2 => .next (cmdStep false s)
  | 3 => .next (cmdStep true s)
  | 4 => .next (cmdStepDir .inward false s)
  | 5 => .next (cmdStepDir .inward true s)
  | 6 => .next (cmdStepDir .outward false s)
  | 7 => .next (cmdStepDir .outward true s)
  | 8 => .next (cmdReadSector s)
  | 9 => .next (cmdReadMulti s)
  | 10 => .next (cmdWriteSector s)
  | 11 => .next (cmdWriteMulti s)
  | 12 => .next (cmdReadAddress s)
  | 13 => .next (cmdForceInterrupt s)
  | 14 => cmdReadTrack s
  | _ => cmdWriteTrack s

/-- The write of a byte to the register selected through 0xFF8604 (R300): bit 4 over bit 3 over A1A0. -/
def fdcWrite (v : Byte) (s : State) : Host.Outcome State Fault Refusal :=
  if selectsCount s.wd.dmaMode then .next { s with wd := { s.wd with dmaCount := v } }
  else if selectsHdc s.wd.dmaMode then .next s
  else match (fdcReg s.wd.dmaMode).toNat with
    | 0 => commandWrite v s
    | 1 => .next { s with wd := { s.wd with track := v } }
    | 2 => .next { s with wd := { s.wd with sector := v } }
    | _ => .next { s with wd := { s.wd with data := v } }

/-- The read of the register selected through 0xFF8604 (R302), with the status read's side effect (R327). -/
def fdcRead (s : State) : Byte × State :=
  if selectsCount s.wd.dmaMode then (s.wd.dmaCount, s)
  else if selectsHdc s.wd.dmaMode then (0xFF, s)
  else match (fdcReg s.wd.dmaMode).toNat with
    | 0 => (s.wd.status, setGpip .fdc true s)
    | 1 => (s.wd.track, s)
    | 2 => (s.wd.sector, s)
    | _ => (s.wd.data, s)

/-- A write of the DMA mode (R305): a change of direction resets the count and the error. -/
def dmaModeWrite (m : Half) (s : State) : State :=
  let toggled := m.getLsbD 8 != s.wd.prevDir
  { s with wd := { s.wd with
    dmaMode := m
    dmaCount := if toggled then 0 else s.wd.dmaCount
    dmaError := if toggled then false else s.wd.dmaError
    prevDir := m.getLsbD 8 } }

/-- The DMA mode with its high byte written (R305). -/
def modeWithHi (m : Half) (b : Byte) : Half := b ++ lo8 m

/-- The DMA mode with its low byte written (R305). -/
def modeWithLo (m : Half) (b : Byte) : Half := hi8 m ++ b

/-- A write of the DMA address (R307). -/
def dmaAddrWrite (a : Addr) (s : State) : State := { s with wd := { s.wd with dmaAddr := a } }

end Sys2Proof.Machine
end

