-- ==== Sys2Proof/Machine/Audio.lean ====
section
/-! DEFINITION. Machine/Audio.lean: `AUDIO_FLOAT` (00_scope.md R17). Its default is IEEE 754 binary64 arithmetic and
binary32 storage, computed exactly on the bit patterns, rounding to nearest, ties to even; the arithmetic of any other
format is opaque (log 15). A finite double is the integer `f64Scaled` times 2^-1074. -/

namespace Sys2Proof.Machine

/-- `f n`, computed only once `n` is known to be zero or not: the function changes no value, and keeps a comparison of
two unknown samples from computing with the format's huge powers of two. -/
def held {α : Type} (n : Nat) (f : Nat → α) : α :=
  match n with
  | 0 => f 0
  | k + 1 => f (k + 1)

/-- `n / d` rounded to the nearest integer, ties to even. -/
def roundEven (n d : Nat) : Nat :=
  let q := n / d
  let r := n % d
  if d < 2 * r ∨ (2 * r = d ∧ q % 2 = 1) then q + 1 else q

/-- The magnitude bits of `n / d` in a format of `p` significand bits whose least positive number is 2^-k and whose
infinity has magnitude bits `inf`. -/
def roundMag (p k inf n d : Nat) : Nat :=
  let q := n * 2 ^ k / d
  let shift := if q < 2 ^ p then 0 else Nat.log2 q + 1 - p
  let m := roundEven (n * 2 ^ k) (d * 2 ^ shift)
  min inf (shift * 2 ^ (p - 1) + m)

/-- Infinity's magnitude bits in binary64. -/
def f64Inf : Nat := 2047 * 2 ^ 52

/-- The double nearest to `n / d`, with a sign. -/
def f64Round (neg : Bool) (n d : Nat) : BitVec 64 :=
  BitVec.ofBool neg ++ BitVec.ofNat 63 (roundMag 53 1074 f64Inf n d)

/-- The sign of a double. -/
def f64Neg (b : BitVec 64) : Bool := b.msb

/-- The magnitude bits of a double. -/
def f64Mag (b : BitVec 64) : Nat := (b.extractLsb' 0 63).toNat

/-- Is a double a NaN? -/
def f64IsNan (b : BitVec 64) : Bool := f64Inf < f64Mag b

/-- Is a double an infinity? -/
def f64IsInf (b : BitVec 64) : Bool := f64Mag b = f64Inf

/-- The NaN the model's operations give (log 15). -/
def f64Nan : BitVec 64 := 0x7FF8000000000000#64

/-- The magnitude of a finite double in units of 2^-1074. -/
def f64Scaled (b : BitVec 64) : Nat :=
  let e := (b.extractLsb' 52 11).toNat
  let f := (b.extractLsb' 0 52).toNat
  if e = 0 then f else (f + 2 ^ 52) * 2 ^ (e - 1)

/-- The value of a finite double in units of 2^-1074. -/
def f64Value (b : BitVec 64) : Int := if f64Neg b then -(f64Scaled b : Int) else f64Scaled b

/-- A double with its sign changed. -/
def f64Flip (b : BitVec 64) : BitVec 64 := b ^^^ 0x8000000000000000#64

/-- Addition. -/
def f64Add (x y : BitVec 64) : BitVec 64 := held (x.toNat + y.toNat) fun _ =>
  if f64IsNan x || f64IsNan y then f64Nan
  else if f64IsInf x then (if f64IsInf y && f64Neg x != f64Neg y then f64Nan else x)
  else if f64IsInf y then y
  else
    let v := f64Value x + f64Value y
    if v = 0 then f64Round (f64Neg x && f64Neg y) 0 1
    else f64Round (decide (v < 0)) v.natAbs (2 ^ 1074)

/-- Subtraction. -/
def f64Sub (x y : BitVec 64) : BitVec 64 := f64Add x (f64Flip y)

/-- Multiplication. -/
def f64Mul (x y : BitVec 64) : BitVec 64 := held (x.toNat + y.toNat) fun _ =>
  let neg := f64Neg x != f64Neg y
  if f64IsNan x || f64IsNan y then f64Nan
  else if f64IsInf x || f64IsInf y then
    (if f64Mag x = 0 ∨ f64Mag y = 0 then f64Nan else BitVec.ofBool neg ++ BitVec.ofNat 63 f64Inf)
  else f64Round neg (f64Scaled x * f64Scaled y) (2 ^ 2148)

/-- A double stored as a single. A NaN is stored as the quiet pattern 0x7FC00000, the model's choice (log 15). -/
def f32OfF64 (x : BitVec 64) : BitVec 32 := held x.toNat fun _ =>
  let inf := 255 * 2 ^ 23
  if f64IsNan x then 0x7FC00000#32
  else if f64IsInf x then BitVec.ofBool (f64Neg x) ++ BitVec.ofNat 31 inf
  else BitVec.ofBool (f64Neg x) ++ BitVec.ofNat 31 (roundMag 24 149 inf (f64Scaled x) (2 ^ 1074))

/-- `n / (65535 * 3.5)` (42_ym2149.md R267): both operands are exact doubles, so the quotient is rounded once. -/
def mixLevel (n : Nat) : BitVec 64 := held n fun n => f64Round false (2 * n) 458745

/-- The double nearest to 0.995 (R267). -/
def dcPole : BitVec 64 := f64Round false 995 1000

/-- Addition in `AUDIO_FLOAT`. -/
def audioAdd (f : Config.AudioFloat) (x y : Config.FloatBits) : Config.FloatBits :=
  match f with
  | .ieee => (f64Add (BitVec.ofNat 64 x) (BitVec.ofNat 64 y)).toNat
  | .other => Config.floatAdd x y

/-- Subtraction in `AUDIO_FLOAT`. -/
def audioSub (f : Config.AudioFloat) (x y : Config.FloatBits) : Config.FloatBits :=
  match f with
  | .ieee => (f64Sub (BitVec.ofNat 64 x) (BitVec.ofNat 64 y)).toNat
  | .other => Config.floatSub x y

/-- Multiplication in `AUDIO_FLOAT`. -/
def audioMul (f : Config.AudioFloat) (x y : Config.FloatBits) : Config.FloatBits :=
  match f with
  | .ieee => (f64Mul (BitVec.ofNat 64 x) (BitVec.ofNat 64 y)).toNat
  | .other => Config.floatMul x y

/-- The sum of three DAC values over 65535 * 3.5, in `AUDIO_FLOAT` (42_ym2149.md R267). In binary64 the sum is exact. -/
def audioLevel (f : Config.AudioFloat) (a b c : Half) : Config.FloatBits :=
  match f with
  | .ieee => (mixLevel (a.toNat + b.toNat + c.toNat)).toNat
  | .other => Config.floatLevel a b c

/-- 0.995 in `AUDIO_FLOAT` (R267). -/
def audioPole : Config.AudioFloat → Config.FloatBits
  | .ieee => dcPole.toNat
  | .other => Config.floatPole

/-- A sample as `AUDIO_FLOAT` stores it in the ring (R267; 10_state.md R51). -/
def audioStore (f : Config.AudioFloat) (x : Config.FloatBits) : Config.FloatBits :=
  match f with
  | .ieee => (f32OfF64 (BitVec.ofNat 64 x)).toNat
  | .other => Config.floatStore x

end Sys2Proof.Machine
end

