-- ==== Sys2Proof/Machine/Ym.lean ====
section
/-! DEFINITION. Machine/Ym.lean: the YM2149's register interface, its generators, the mixer, the resampler and the
audio ring (42_ym2149.md). -/

namespace Sys2Proof.Machine

/-- The byte of a register. -/
def ymReg (y : Ym) (n : BitVec 4) : Byte := y.reg[n.toNat]'(n.isLt)

/-- Set the byte of a register. -/
def setYmReg (y : Ym) (n : BitVec 4) (v : Byte) : Ym := { y with reg := y.reg.set n.toNat v n.isLt }

/-- Register select write (R250). -/
def ymSelect (v : Byte) (s : State) : State := { s with ym := { s.ym with sel := v.extractLsb' 0 4 } }

/-- Register data read at 0xFF8800 (R251). -/
def ymReadData (s : State) : Byte := ymReg s.ym s.ym.sel

/-- The drive of a port A value (R255): both select bits are active low, and drive A takes precedence. -/
def portDrive (v : Byte) : Drive :=
  if !bit v 1 then .driveA else if !bit v 2 then .driveB else .noDrive

/-- The side of a port A value (R255). -/
def portSide (invert : Bool) (v : Byte) : BitVec 1 :=
  if invert then ~~~ v.extractLsb' 0 1 else v.extractLsb' 0 1

/-- `port_a_write(v)` (R255). -/
def portAWrite (v : Byte) (s : State) : State :=
  { s with wd := { s.wd with drive := portDrive v, side := portSide s.params.ymSideInvert v } }

/-- The envelope restart of a register-13 write (R254). -/
def envRestart (s : State) : State := { s with ym := { s.ym with envPos := 0, envCnt := 0 } }

/-- Register data write at 0xFF8802 (R252). -/
def ymWriteData (v : Byte) (s : State) : State :=
  let s1 := { s with ym := setYmReg s.ym s.ym.sel v }
  if s.ym.sel = 13 then envRestart s1
  else if s.ym.sel = 14 then portAWrite v s1
  else s1

/-- A tone generator's tick (R260): a period of 0 behaves as 1. -/
def tickTone (per : Nat) (t : Tone) : Tone :=
  if max 1 per ≤ t.cnt + 1 then { cnt := 0, sq := !t.sq } else { t with cnt := t.cnt + 1 }

/-- `lfsr_step()` (R262): the new LFSR and the noise bit. -/
def lfsrStep (rng : BitVec 17) : BitVec 17 × Bool :=
  if rng.getLsbD 0 then ((rng >>> 1) ^^^ 0x12000#17, true) else (rng >>> 1, false)

/-- The noise generator's tick (R261). -/
def tickNoise (y : Ym) : Ym :=
  if 2 * max 1 (noisePeriod y.reg) ≤ y.ncnt + 1 then
    let r := lfsrStep y.rng
    { y with ncnt := 0, rng := r.1, noise := r.2 }
  else { y with ncnt := y.ncnt + 1 }

/-- The envelope generator's tick (R263). -/
def tickEnv (p : Config.Params) (y : Ym) : Ym :=
  if y.envCnt - 1 ≤ 0 then
    { y with
      envCnt := max 1 (envPeriod y.reg : Int)
      envPos := if y.envPos + 1 = 96 then envLoopStart p else y.envPos + 1 }
  else { y with envCnt := y.envCnt - 1 }

/-- The generators of one tick, in the order of R259. -/
def tickGenerators (p : Config.Params) (y : Ym) : Ym :=
  tickEnv p (tickNoise { y with
    toneA := tickTone (tonePeriodA y.reg) y.toneA
    toneB := tickTone (tonePeriodB y.reg) y.toneB
    toneC := tickTone (tonePeriodC y.reg) y.toneC })

/-- `vol5[x]` (R265), for channel `i` with level register `lvl` and square `sq`. -/
def channelLevel (p : Config.Params) (y : Ym) (i : Nat) (lvl : Byte) (sq : Bool) : BitVec 5 :=
  let toneEn := !bit y.reg[7] i
  let noiseEn := !bit y.reg[7] (3 + i)
  if (!toneEn || sq) && (!noiseEn || y.noise) then
    if bit lvl 4 then envTableOf p (y.reg[13].extractLsb' 0 4) y.envPos
    else Config.vol4to5 (lvl.extractLsb' 0 4)
  else 0

/-- `s` of R267: the three channels' DAC values, mixed. -/
def mixedLevel (p : Config.Params) (y : Ym) : Config.FloatBits :=
  audioLevel p.audioFloat (Config.ymDac (channelLevel p y 0 y.reg[8] y.toneA.sq))
    (Config.ymDac (channelLevel p y 1 y.reg[9] y.toneB.sq)) (Config.ymDac (channelLevel p y 2 y.reg[10] y.toneC.sq))

/-- Push a sample on the ring, dropping the oldest one when the ring is over its cap (R267). -/
def pushSample (cap : Nat) (x : Config.FloatBits) (ring : List (Config.FloatBits)) : List (Config.FloatBits) :=
  let r := ring ++ [x]
  if cap < r.length then r.drop 1 else r

/-- The DC filter's output for a level (R267). -/
def dcFilter (f : Config.AudioFloat) (lvl : Config.FloatBits) (y : Ym) : Config.FloatBits :=
  audioAdd f (audioSub f lvl y.xPrev) (audioMul f (audioPole f) y.yPrev)

/-- Store the filter's taps, and push a sample on the ring. -/
def storeSample (cap : Nat) (lvl out : Config.FloatBits) (x : Config.FloatBits) (y : Ym) : Ym :=
  { y with xPrev := lvl, yPrev := out, ring := pushSample cap x y.ring }

/-- `emit_sample()` (R267). -/
def emitSample (p : Config.Params) (y : Ym) : Ym :=
  let lvl := mixedLevel p y
  let out := dcFilter p.audioFloat lvl y
  storeSample (p.hostRate / 4) lvl out (audioStore p.audioFloat out) y

/-- `emit_sample()` n times. -/
def emitSamples (p : Config.Params) : Nat → Ym → Ym
  | 0, y => y
  | n + 1, y => emitSamples p n (emitSample p y)

/-- `ratio` (R266). -/
def resampleRatio (hostRate : Nat) : Nat := 250000 * 2 ^ 16 / hostRate

/-- Set the resampler's accumulator. -/
def setRacc (n : Nat) (y : Ym) : Ym := { y with racc := n }

/-- The resampler step (R266): as many samples as the ratio fits into the accumulator. -/
def resample (p : Config.Params) (y : Ym) : Ym :=
  let ratio := resampleRatio p.hostRate
  let racc := 0x10000 + y.racc
  emitSamples p (racc / ratio) (setRacc (racc % ratio) y)

/-- `ym_tick()` (R259). -/
def ymTick (p : Config.Params) (y : Ym) : Ym := resample p (tickGenerators p y)

/-- `ym_tick()` n times. -/
def ymTicks (p : Config.Params) : Nat → Ym → Ym
  | 0, y => y
  | n + 1, y => ymTicks p n (ymTick p y)

/-- Set the cycles not yet converted to ticks. -/
def setCyc (n : Nat) (y : Ym) : Ym := { y with cyc := n }

/-- Replace the YM2149. -/
def setYm (y : Ym) (s : State) : State := { s with ym := y }

/-- `ym.sync(cycles)` (R257): one tick per 32 CPU cycles, the remainder carried. -/
def ymSync (cycles : Nat) (s : State) : State :=
  let c := cycles + s.ym.cyc
  setYm (ymTicks s.params (c / 32) (setCyc (c % 32) s.ym)) s

/-- The samples an audio pull of `n` returns, and the YM after it (R269; 20_memory.md R108). -/
def pullSamples : Nat → Ym → List (Config.FloatBits) × Ym
  | 0, y => ([], y)
  | n + 1, y =>
    match y.ring with
    | [] => let r := pullSamples n y; (y.last :: r.1, r.2)
    | x :: t => let r := pullSamples n { y with ring := t, last := x }; (x :: r.1, r.2)

/-- The audio agent's step (R269). -/
def audioPull (n : Nat) (s : State) : State :=
  let r := pullSamples n s.ym
  { s with ym := r.2, host := { s.host with audioOut := r.1 } }

end Sys2Proof.Machine
end

