-- ==== Sys2Proof/Machine/Ops.lean ====
section
/-! DEFINITION. Machine/Ops.lean: the bus accessors of 20_memory.md R84..R91 with every device handler, the bus-error
protocol and the group-0 frame (60_exceptions.md R452..R457), the short-frame exceptions and the interrupt entry
(R459, R460), the acknowledge (40_cpu_integration.md R182..R185) and the return from an exception (R463). -/

namespace Sys2Proof.Machine

/-- Set the core's registers (40_cpu_integration.md R172). -/
def setCore (r : CoreRegs) (s : State) : State := { s with cpu := { s.cpu with regs := r } }

/-- Set the program counter. -/
def setPc (a : Word) (s : State) : State := setCore { s.cpu.regs with pc := a } s

/-- Set or clear the bus-error mark of `schedule_bus_error` (40_cpu_integration.md R176). -/
def markBerr (b : Bool) (s : State) : State := { s with cpu := { s.cpu with berr := b } }

/-- The byte read of a claimed address (R84, R88). -/
def deviceRead8 (r : IoReg) (s : State) : Byte × State :=
  match r with
  | .fdcDataHi => (0x00, s)
  | .fdcDataLo => fdcRead s
  | .dmaModeHi => (0x00, s)
  | .dmaModeLo => (lo8 (dmaStatus s.wd), s)
  | .dmaAddrHi => (s.wd.dmaAddr.extractLsb' 16 8, s)
  | .dmaAddrMid => (s.wd.dmaAddr.extractLsb' 8 8, s)
  | .dmaAddrLo => (s.wd.dmaAddr.extractLsb' 0 8, s)
  | .ymSelect => (ymReadData s, s)
  | .ymData => (0xFF, s)
  | .mfp m => (mfpRead s.mfp m, s)
  | .aciaControl => (s.acia.status, s)
  | .aciaData => aciaDataRead s

/-- The byte write of a claimed address (R87, R88). -/
def deviceWrite8 (r : IoReg) (v : Byte) (s : State) : Host.Outcome State Fault Refusal :=
  match r with
  | .fdcDataHi => .next s
  | .fdcDataLo => fdcWrite v s
  | .dmaModeHi => .next (dmaModeWrite (modeWithHi s.wd.dmaMode v) s)
  | .dmaModeLo => .next (dmaModeWrite (modeWithLo s.wd.dmaMode v) s)
  | .dmaAddrHi => .next (dmaAddrWrite (dmaAddrWithHi s.wd.dmaAddr v) s)
  | .dmaAddrMid => .next (dmaAddrWrite (dmaAddrWithMid s.wd.dmaAddr v) s)
  | .dmaAddrLo => .next (dmaAddrWrite (dmaAddrWithLo s.wd.dmaAddr v) s)
  | .ymSelect => .next (ymSelect v s)
  | .ymData => .next (ymWriteData v s)
  | .mfp m => .next (mfpWrite m v s)
  | .aciaControl => .next (aciaControlWrite v s)
  | .aciaData => .next (ikbdReceive v s)

/-- `MemRead(a, 1)` past the bus-error check (R84). -/
def read8 (a : Addr) (s : State) : Byte × State :=
  match region s.params a with
  | .io =>
    match ioReg a with
    | some r => deviceRead8 r s
    | none => (storedByte s a.toNat, s)
  | .rom _ | .ram _ | .unmapped => (peekByte s a, s)

/-- `MemRead(a, 2)` past the bus-error check (R85): the word handlers run once. -/
def read16 (a : Addr) (s : State) : Half × State :=
  if a = 0xFF8604#24 then
    let r := fdcRead s
    (r.1.setWidth 16, r.2)
  else if a = 0xFF8606#24 then (dmaStatus s.wd, s)
  else
    let h := read8 a s
    let l := read8 (a + 1) h.2
    (be16 h.1 l.1, l.2)

/-- `MemRead(a, 4)` past the bus-error check (R86). -/
def read32 (a : Addr) (s : State) : Word × State :=
  let h := read16 a s
  let l := read16 (a + 2) h.2
  (h.1 ++ l.1, l.2)

/-- The read of a width, its value in the low bits. -/
def readRaw (w : Width) (a : Addr) (s : State) : Word × State :=
  match w with
  | .byte => let r := read8 a s; (r.1.setWidth 32, r.2)
  | .word => let r := read16 a s; (r.1.setWidth 32, r.2)
  | .long => read32 a s

/-- `MemWrite(a, 1, v)` past the bus-error check (R87). -/
def write8 (a : Addr) (v : Byte) (s : State) : Host.Outcome State Fault Refusal :=
  match region s.params a with
  | .rom _ => .next s
  | .ram i => .next (storeByte i v s)
  | .io =>
    match ioReg a with
    | some r => deviceWrite8 r v s
    | none => .next (storeByte a.toNat v s)
  | .unmapped => .next s

/-- `MemWrite(a, 2, v)` past the bus-error check (R91): the word handlers run once. -/
def write16 (a : Addr) (v : Half) (s : State) : Host.Outcome State Fault Refusal :=
  if a = 0xFF8604#24 then fdcWrite (lo8 v) s
  else if a = 0xFF8606#24 then .next (dmaModeWrite v s)
  else andThen (write8 a (hi8 v) s) (write8 (a + 1) (lo8 v))

/-- `MemWrite(a, 4, v)` past the bus-error check (R91). -/
def write32 (a : Addr) (v : Word) (s : State) : Host.Outcome State Fault Refusal :=
  andThen (write16 a (hi16 v) s) (write16 (a + 2) (lo16 v))

/-- The write of a width, from the low bits of a value. -/
def writeRaw (w : Width) (a : Addr) (v : Word) (s : State) : Host.Outcome State Fault Refusal :=
  match w with
  | .byte => write8 a (v.setWidth 8) s
  | .word => write16 a (v.setWidth 16) s
  | .long => write32 a v s

/-- The function code (60_exceptions.md R452). -/
def functionCode (sup prog : Bool) : BitVec 3 :=
  if sup then (if prog then 6 else 5) else (if prog then 2 else 1)

/-- The access word of a group-0 frame (R453): bits 15..5 are a draw. -/
def accessWord (d : Word) (rd prog sup : Bool) : Half :=
  d.setWidth 11 ++ BitVec.ofBool rd ++ BitVec.ofBool (!prog) ++ functionCode sup prog

/-- The pushed PC of a group-0 frame (R453): one of the even addresses in pc+2..pc+10, by a draw. From an even pc there
are five; from an odd one, which only a fetch has (R458), the four in pc+3..pc+9. -/
def pushedPc (d ipc : Word) : Word :=
  if ipc.getLsbD 0 then ipc + 3#32 + 2#32 * BitVec.ofNat 32 (d.toNat % 4)
  else ipc + 2#32 + 2#32 * BitVec.ofNat 32 (d.toNat % 5)

/-- A bus-error vector of R452: the long at 8 in RAM, read with no side effect. -/
def berrVector (s : State) : Word :=
  be32 (storedByte s 8) (storedByte s 9) (storedByte s 10) (storedByte s 11)

/-- The handler address of vector `n` (R451). The long lies in the ROM mirror or in RAM, so the read has no side
effect. -/
def vectorAddr (n : Byte) (s : State) : Word :=
  let a : Addr := n.setWidth 24 <<< 2
  be32 (peekByte s a) (peekByte s (a + 1)) (peekByte s (a + 2)) (peekByte s (a + 3))

/-- A write of the group-0 frame. A bus error here halts the 68000 (R457); where the vector at 8 is zero the protocol
takes none (R455). -/
def frameWrite (w : Width) (a : Word) (v : Word) (s : State) : Host.Outcome State Fault Refusal :=
  if (firstBusError w (busAddr a)).isSome then
    (if berrVector s = 0 then .next s else .fault .cpuHalted)
  else writeRaw w (busAddr a) v s

/-- `push_group0_frame(info, sr0)` (R453), the supervisor stack active. An odd SSP halts the 68000 (R457). -/
def pushGroup0 (addr : Addr) (rd prog : Bool) (sr0 : Half) (s : State) : Host.Outcome State Fault Refusal :=
  let ssp := s.cpu.regs.ssp - 14#32
  if ssp.getLsbD 0 then .fault .cpuHalted
  else
    let d1 := Config.freeWord s.draws
    let d2 := Config.freeWord (s.draws + 1)
    let s1 := setCore { s.cpu.regs with ssp := ssp } { s with draws := s.draws + 2 }
    andThen (frameWrite .word ssp ((accessWord d1 rd prog (srS sr0)).setWidth 32) s1) fun s2 =>
    andThen (frameWrite .long (ssp + 2#32) (addr.setWidth 32) s2) fun s3 =>
    andThen (frameWrite .word (ssp + 6#32) (s.cpu.ir.setWidth 32) s3) fun s4 =>
    andThen (frameWrite .word (ssp + 8#32) (sr0.setWidth 32) s4) fun s5 =>
    frameWrite .long (ssp + 10#32) (pushedPc d2 s.cpu.ipc) s5

/-- Set the words the core may hold from before the last stores (20_memory.md R106; log 36). -/
def setAhead (l : List (Addr × Half)) (s : State) : State := { s with cpu := { s.cpu with ahead := l } }

/-- Supervisor mode with trace off: `set_supervisor(true)` and T cleared (R452, R459; 40_cpu_integration.md R175). The
core holds no word of the handler yet (log 36). -/
def enterSupervisor (s : State) : State :=
  setCore { s.cpu.regs with sr := srClearT (srSetS s.cpu.regs.sr true) } (setAhead [] s)

/-- TAKING A GROUP-0 EXCEPTION (R452, R458): supervisor mode, the frame, the handler `h` (read where the rule reads
it), and the mark that unwinds the instruction. -/
def takeGroup0 (addr : Addr) (rd prog : Bool) (h : State → Word) (s : State) : Host.Outcome State Fault Refusal :=
  andThen (pushGroup0 addr rd prog s.cpu.regs.sr (enterSupervisor s)) fun s1 =>
    .next (markBerr true (setPc (h s1) s1))

/-- An address error (R458): vector 3, read after the frame is pushed, which R458 does not say: the model's choice
(log 33). -/
def addressError (addr : Addr) (rd prog : Bool) (s : State) : Host.Outcome State Fault Refusal :=
  takeGroup0 addr rd prog (vectorAddr 3) s

/-- The value a read of a width gives in the low bits of a free value. -/
def drawOfWidth (w : Width) (d : Word) : Word :=
  match w with
  | .byte => (d.setWidth 8).setWidth 32
  | .word => (d.setWidth 16).setWidth 32
  | .long => d

/-- The bus-error protocol on a read (R452, R455). -/
def busErrorRead (w : Width) (addr : Addr) (prog : Bool) (s : State) : Host.Outcome State Fault Refusal :=
  if berrVector s = 0 then .next (answer (drawOfWidth w (drawWord s)) (nextDraw s))
  else takeGroup0 addr true prog (fun _ => berrVector s) s

/-- The bus-error protocol on a write (R452, R455). -/
def busErrorWrite (addr : Addr) (s : State) : Host.Outcome State Fault Refusal :=
  if berrVector s = 0 then .next s else takeGroup0 addr false false (fun _ => berrVector s) s

/-- `MemRead(a, n)`, an instruction fetch if `prog`: the value goes to `bus` (R84..R86, R90). -/
def memRead (w : Width) (a : Addr) (prog : Bool) (s : State) : Host.Outcome State Fault Refusal :=
  match firstBusError w a with
  | some b => busErrorRead w b prog s
  | none => let r := readRaw w a s; .next (answer r.1 r.2)

/-- `MemWrite(a, n, v)` (R87, R90, R91). -/
def memWrite (w : Width) (a : Addr) (v : Word) (s : State) : Host.Outcome State Fault Refusal :=
  match firstBusError w a with
  | some b => busErrorWrite b s
  | none => writeRaw w a v s

/-- A CPU access to the bus, a data access (20_memory.md R94): the accessors are total (R93). -/
def busAccess (a : Addr) (acc : Access) (s : State) : Host.Outcome State Fault Refusal :=
  match acc with
  | .rd8 => memRead .byte a false s
  | .rd16 => memRead .word a false s
  | .rd32 => memRead .long a false s
  | .wr8 v => memWrite .byte a (v.setWidth 32) s
  | .wr16 v => memWrite .word a (v.setWidth 32) s
  | .wr32 v => memWrite .long a v s

/-- Go on with the instruction unless an exception has unwound it (40_cpu_integration.md R176). -/
def unlessUnwound (o : Host.Outcome State Fault Refusal) (f : State → Host.Outcome State Fault Refusal) :
    Host.Outcome State Fault Refusal :=
  andThen o fun s => if s.cpu.berr then .next s else f s

/-- Is a CPU access of a width at an odd address stopped by the core (R93, R458)? -/
def misaligned (w : Width) (a : Word) : Bool := w != .byte && a.getLsbD 0

/-- A read by the core: an odd word or long address is an address error before any bus access (R458). -/
def cpuRead (w : Width) (a : Word) (prog : Bool) (s : State) : Host.Outcome State Fault Refusal :=
  if misaligned w a then addressError (busAddr a) true prog s else memRead w (busAddr a) prog s

/-- A write by the core. -/
def cpuWrite (w : Width) (a : Word) (v : Word) (s : State) : Host.Outcome State Fault Refusal :=
  if misaligned w a then addressError (busAddr a) false false s else memWrite w (busAddr a) v s

/-- The short frame (R459, R460): SSP - 6, SR at SSP, PC at SSP + 2, then the jump through vector `v`. An odd SSP is
an address error whose own frame then meets the odd SSP: the halt of R457. A bus error in the push unwinds it with SSP
already lowered (log 41). -/
def shortFrame (v : Byte) (sr0 : Half) (pc : Word) (s : State) : Host.Outcome State Fault Refusal :=
  let ssp := s.cpu.regs.ssp - 6#32
  unlessUnwound (cpuWrite .word ssp (sr0.setWidth 32) (setCore { s.cpu.regs with ssp := ssp } s)) fun s1 =>
  unlessUnwound (cpuWrite .long (ssp + 2#32) pc s1) fun s2 =>
  .next (setPc (vectorAddr v s2) s2)

/-- TAKING A SHORT-FRAME EXCEPTION (R459): vector `v`, the pushed PC `pc`. S and T change before the push, so that the
frame of a bus error in it saves them changed: R459 does not order the two, and this is the model's choice (log 41). -/
def takeException (v : Byte) (pc : Word) (s : State) : Host.Outcome State Fault Refusal :=
  shortFrame v s.cpu.regs.sr pc (enterSupervisor s)

/-- Clear the HBL flag (40_cpu_integration.md R182). -/
def clearHbl (s : State) : State := recomputeIpl { s with arb := { s.arb with hbl := false } }

/-- Clear the VBL flag (R183). -/
def clearVbl (s : State) : State := recomputeIpl { s with arb := { s.arb with vbl := false } }

/-- `irq_ack(l)` (R182..R185): the vector, and the state after the acknowledge. -/
def irqAck (l : BitVec 3) (s : State) : Byte × State :=
  if l = 2 then (26, clearHbl s)
  else if l = 4 then (28, clearVbl s)
  else if l = 6 then
    let r := mfpIack s
    (r.1, updateIrq r.2)
  else (24 + l.setWidth 8, s)

/-- The acknowledge cycle as the core sees it: the vector goes to `bus` (30_encoding.md R148). -/
def acknowledge (l : BitVec 3) (s : State) : State :=
  let r := irqAck l s
  answer8 r.1 r.2

/-- Is an interrupt accepted at this boundary (40_cpu_integration.md R179)? -/
def interruptAccepted (c : Cpu) : Bool := srMask c.regs.sr < c.ipl || c.ipl == 7

/-- No instruction is being executed: a group-0 frame pushed now holds free values for IR and PC, which R452 does not
give (log 12). -/
def betweenInstructions (s : State) : State :=
  { s with
    draws := s.draws + 2
    cpu := { s.cpu with ir := (Config.freeWord s.draws).setWidth 16, ipc := Config.freeWord (s.draws + 1) } }

/-- TAKING AN INTERRUPT (60_exceptions.md R460): acknowledge, save, set the mask, push, jump. Which IR and PC the frame
of a bus error in these pushes holds is the model's free choice (log 12). -/
def takeInterrupt (s : State) : Host.Outcome State Fault Refusal :=
  let l := s.cpu.ipl
  let r := irqAck l s
  let s1 := enterSupervisor (betweenInstructions r.2)
  shortFrame r.1 s.cpu.regs.sr s.cpu.regs.pc
    (setCore { s1.cpu.regs with sr := srSetMask s1.cpu.regs.sr l } s1)

/-- RETURN FROM EXCEPTION (R463): SR, then PC, from the short frame; nothing is sent to a device. -/
def returnFromException (s : State) : Host.Outcome State Fault Refusal :=
  let ssp := s.cpu.regs.ssp
  unlessUnwound (cpuRead .word ssp false s) fun s1 =>
  unlessUnwound (cpuRead .long (ssp + 2#32) false s1) fun s2 =>
  .next (setCore { s2.cpu.regs with
    ssp := ssp + 6#32, sr := srValue (s1.bus.setWidth 16), pc := s2.bus } s2)

end Sys2Proof.Machine
end

