-- ==== Sys2Proof/Machine/AciaRegisters.lean ====
section
/-! DEFINITION. Machine/AciaRegisters.lean: the ACIA register accesses (44_acia_ikbd.md R360..R363). -/

namespace Sys2Proof.Machine

/-- ACIA_STATUS_RD8: byte read of 0xFFFC00 (R360). -/
def execAciaStatusRd8 (s : State) : Host.Outcome State Fault Refusal :=
  .next (answer8 s.acia.status s)

/-- ACIA_CONTROL_WR8: byte write of 0xFFFC00 (R361). -/
def execAciaControlWr8 (v : Byte) (s : State) : Host.Outcome State Fault Refusal :=
  .next (aciaControlWrite v s)

/-- ACIA_DATA_RD8: byte read of 0xFFFC02 (R362). -/
def execAciaDataRd8 (s : State) : Host.Outcome State Fault Refusal :=
  let r := aciaDataRead s
  .next (answer8 r.1 r.2)

/-- ACIA_DATA_WR8: byte write of 0xFFFC02 (R363). -/
def execAciaDataWr8 (v : Byte) (s : State) : Host.Outcome State Fault Refusal :=
  .next (ikbdReceive v s)

end Sys2Proof.Machine
end

