-- ==== Sys2Proof/Machine/FdcCommands.lean ====
section
/-! DEFINITION. Machine/FdcCommands.lean: the WD1772 commands (43_wd1772_dma.md R310..R326), each from the start of
its command write. The low nibble is stored with the command byte and has no effect (30_encoding.md R141). -/

namespace Sys2Proof.Machine

/-- RESTORE (R311). -/
def execFdcRestore (fl : BitVec 4) (s : State) : Host.Outcome State Fault Refusal :=
  .next (cmdRestore (wdBegin (0x0#4 ++ fl) s))

/-- SEEK (R312). -/
def execFdcSeek (fl : BitVec 4) (s : State) : Host.Outcome State Fault Refusal :=
  .next (cmdSeek (wdBegin (0x1#4 ++ fl) s))

/-- STEP (R313). -/
def execFdcStep (fl : BitVec 4) (s : State) : Host.Outcome State Fault Refusal :=
  .next (cmdStep false (wdBegin (0x2#4 ++ fl) s))

/-- STEP_U (R313). -/
def execFdcStepU (fl : BitVec 4) (s : State) : Host.Outcome State Fault Refusal :=
  .next (cmdStep true (wdBegin (0x3#4 ++ fl) s))

/-- STEP_IN (R314). -/
def execFdcStepIn (fl : BitVec 4) (s : State) : Host.Outcome State Fault Refusal :=
  .next (cmdStepDir .inward false (wdBegin (0x4#4 ++ fl) s))

/-- STEP_IN_U (R314). -/
def execFdcStepInU (fl : BitVec 4) (s : State) : Host.Outcome State Fault Refusal :=
  .next (cmdStepDir .inward true (wdBegin (0x5#4 ++ fl) s))

/-- STEP_OUT (R315). -/
def execFdcStepOut (fl : BitVec 4) (s : State) : Host.Outcome State Fault Refusal :=
  .next (cmdStepDir .outward false (wdBegin (0x6#4 ++ fl) s))

/-- STEP_OUT_U (R315). -/
def execFdcStepOutU (fl : BitVec 4) (s : State) : Host.Outcome State Fault Refusal :=
  .next (cmdStepDir .outward true (wdBegin (0x7#4 ++ fl) s))

/-- READ_SECTOR (R317). -/
def execFdcReadSector (fl : BitVec 4) (s : State) : Host.Outcome State Fault Refusal :=
  .next (cmdReadSector (wdBegin (0x8#4 ++ fl) s))

/-- READ_SECTOR_MULTI (R318). -/
def execFdcReadSectorMulti (fl : BitVec 4) (s : State) : Host.Outcome State Fault Refusal :=
  .next (cmdReadMulti (wdBegin (0x9#4 ++ fl) s))

/-- WRITE_SECTOR (R321). -/
def execFdcWriteSector (fl : BitVec 4) (s : State) : Host.Outcome State Fault Refusal :=
  .next (cmdWriteSector (wdBegin (0xA#4 ++ fl) s))

/-- WRITE_SECTOR_MULTI (R321). -/
def execFdcWriteSectorMulti (fl : BitVec 4) (s : State) : Host.Outcome State Fault Refusal :=
  .next (cmdWriteMulti (wdBegin (0xB#4 ++ fl) s))

/-- READ_ADDRESS (R323). -/
def execFdcReadAddress (fl : BitVec 4) (s : State) : Host.Outcome State Fault Refusal :=
  .next (cmdReadAddress (wdBegin (0xC#4 ++ fl) s))

/-- FORCE_INTERRUPT (R326). -/
def execFdcForceInterrupt (fl : BitVec 4) (s : State) : Host.Outcome State Fault Refusal :=
  .next (cmdForceInterrupt (wdBegin (0xD#4 ++ fl) s))

/-- READ_TRACK (R324). -/
def execFdcReadTrack (fl : BitVec 4) (s : State) : Host.Outcome State Fault Refusal :=
  cmdReadTrack (wdBegin (0xE#4 ++ fl) s)

/-- WRITE_TRACK (R325). -/
def execFdcWriteTrack (fl : BitVec 4) (s : State) : Host.Outcome State Fault Refusal :=
  cmdWriteTrack (wdBegin (0xF#4 ++ fl) s)

end Sys2Proof.Machine
end

