-- ==== Sys2Proof/Machine/FdcRegisters.lean ====
section
/-! DEFINITION. Machine/FdcRegisters.lean: the FDC and DMA register accesses at 0xFF8604..0xFF860D
(43_wd1772_dma.md R300..R308). -/

namespace Sys2Proof.Machine

/-- FDC_DMA_DATA_RD16: word read of 0xFF8604 (R302); the high byte reads 0x00. -/
def execFdcDmaDataRd16 (s : State) : Host.Outcome State Fault Refusal :=
  let r := fdcRead s
  .next (answer8 r.1 r.2)

/-- FDC_DMA_DATA_WR16: word write of 0xFF8604 (R300); the high byte is ignored. -/
def execFdcDmaDataWr16 (v : Half) (s : State) : Host.Outcome State Fault Refusal :=
  fdcWrite (lo8 v) s

/-- FDC_DMA_DATA_HI_RD8: byte read of 0xFF8604 (R303): 0x00, no side effect. -/
def execFdcDmaDataHiRd8 (s : State) : Host.Outcome State Fault Refusal :=
  .next (answer8 0x00 s)

/-- FDC_DMA_DATA_HI_WR8: byte write of 0xFF8604 (R301): no effect. -/
def execFdcDmaDataHiWr8 (_v : Byte) (s : State) : Host.Outcome State Fault Refusal :=
  .next s

/-- FDC_DMA_DATA_LO_RD8: byte read of 0xFF8605 (R303): the low byte of R302, same side effect. -/
def execFdcDmaDataLoRd8 (s : State) : Host.Outcome State Fault Refusal :=
  let r := deviceRead8 .fdcDataLo s
  .next (answer8 r.1 r.2)

/-- FDC_DMA_DATA_LO_WR8: byte write of 0xFF8605 (R301): as the word write. -/
def execFdcDmaDataLoWr8 (v : Byte) (s : State) : Host.Outcome State Fault Refusal :=
  fdcWrite v s

/-- DMA_STATUS_RD16: word read of 0xFF8606 (R306). -/
def execDmaStatusRd16 (s : State) : Host.Outcome State Fault Refusal :=
  .next (answer16 (dmaStatus s.wd) s)

/-- DMA_MODE_WR16: word write of 0xFF8606 (R305). -/
def execDmaModeWr16 (v : Half) (s : State) : Host.Outcome State Fault Refusal :=
  .next (dmaModeWrite v s)

/-- DMA_STATUS_HI_RD8: byte read of 0xFF8606 (R306): 0x00. -/
def execDmaStatusHiRd8 (s : State) : Host.Outcome State Fault Refusal :=
  .next (answer8 0x00 s)

/-- DMA_MODE_HI_WR8: byte write of 0xFF8606 (R305). -/
def execDmaModeHiWr8 (v : Byte) (s : State) : Host.Outcome State Fault Refusal :=
  .next (dmaModeWrite (modeWithHi s.wd.dmaMode v) s)

/-- DMA_STATUS_LO_RD8: byte read of 0xFF8607 (R306): the low byte. -/
def execDmaStatusLoRd8 (s : State) : Host.Outcome State Fault Refusal :=
  .next (answer8 (lo8 (dmaStatus s.wd)) s)

/-- DMA_MODE_LO_WR8: byte write of 0xFF8607 (R305). -/
def execDmaModeLoWr8 (v : Byte) (s : State) : Host.Outcome State Fault Refusal :=
  .next (dmaModeWrite (modeWithLo s.wd.dmaMode v) s)

/-- DMA_ADDR_HI_RD8: byte read of 0xFF8609 (R308). -/
def execDmaAddrHiRd8 (s : State) : Host.Outcome State Fault Refusal :=
  .next (answer8 (s.wd.dmaAddr.extractLsb' 16 8) s)

/-- DMA_ADDR_HI_WR8: byte write of 0xFF8609 (R307). -/
def execDmaAddrHiWr8 (v : Byte) (s : State) : Host.Outcome State Fault Refusal :=
  .next (dmaAddrWrite (dmaAddrWithHi s.wd.dmaAddr v) s)

/-- DMA_ADDR_MID_RD8: byte read of 0xFF860B (R308). -/
def execDmaAddrMidRd8 (s : State) : Host.Outcome State Fault Refusal :=
  .next (answer8 (s.wd.dmaAddr.extractLsb' 8 8) s)

/-- DMA_ADDR_MID_WR8: byte write of 0xFF860B (R307). -/
def execDmaAddrMidWr8 (v : Byte) (s : State) : Host.Outcome State Fault Refusal :=
  .next (dmaAddrWrite (dmaAddrWithMid s.wd.dmaAddr v) s)

/-- DMA_ADDR_LO_RD8: byte read of 0xFF860D (R308). -/
def execDmaAddrLoRd8 (s : State) : Host.Outcome State Fault Refusal :=
  .next (answer8 (s.wd.dmaAddr.extractLsb' 0 8) s)

/-- DMA_ADDR_LO_WR8: byte write of 0xFF860D (R307). -/
def execDmaAddrLoWr8 (v : Byte) (s : State) : Host.Outcome State Fault Refusal :=
  .next (dmaAddrWrite (dmaAddrWithLo s.wd.dmaAddr v) s)

end Sys2Proof.Machine
end

