-- ==== Sys2Proof/Machine/Iack.lean ====
section
/-! DEFINITION. Machine/Iack.lean: the interrupt acknowledge cycles (30_encoding.md R148; 40_cpu_integration.md
R182..R185). -/

namespace Sys2Proof.Machine

/-- IACK_L1 (R185). -/
def execIackL1 (s : State) : Host.Outcome State Fault Refusal :=
  .next (acknowledge 1 s)

/-- IACK_L2 (R182). -/
def execIackL2 (s : State) : Host.Outcome State Fault Refusal :=
  .next (acknowledge 2 s)

/-- IACK_L3 (R185). -/
def execIackL3 (s : State) : Host.Outcome State Fault Refusal :=
  .next (acknowledge 3 s)

/-- IACK_L4 (R183). -/
def execIackL4 (s : State) : Host.Outcome State Fault Refusal :=
  .next (acknowledge 4 s)

/-- IACK_L5 (R185). -/
def execIackL5 (s : State) : Host.Outcome State Fault Refusal :=
  .next (acknowledge 5 s)

/-- IACK_L6 (R184). -/
def execIackL6 (s : State) : Host.Outcome State Fault Refusal :=
  .next (acknowledge 6 s)

/-- IACK_L7 (R185). -/
def execIackL7 (s : State) : Host.Outcome State Fault Refusal :=
  .next (acknowledge 7 s)

end Sys2Proof.Machine
end

