-- ==== Sys2Proof/Machine/IkbdCommands.lean ====
section
/-! DEFINITION. Machine/IkbdCommands.lean: the IKBD commands (44_acia_ikbd.md R371..R377): what the last byte of a
command does. The assembly buffer is then empty (R370; log 26). -/

namespace Sys2Proof.Machine

/-- SET_MOUSE_BUTTON_ACTION (R371): accepted and ignored. -/
def execSetMouseButtonAction (_p1 : Byte) (s : State) : Host.Outcome State Fault Refusal :=
  .next (clearCmd s)

/-- SET_RELATIVE_MOUSE (R372). -/
def execSetRelativeMouse (s : State) : Host.Outcome State Fault Refusal :=
  .next (clearCmd (setMouse true s))

/-- SET_ABSOLUTE_MOUSE (R373). -/
def execSetAbsoluteMouse (_p1 : Byte) (_p2 : Byte) (_p3 : Byte) (_p4 : Byte) (s : State) :
    Host.Outcome State Fault Refusal :=
  .next (clearCmd (setMouse false s))

/-- SET_MOUSE_KEYCODE_MODE (R373). -/
def execSetMouseKeycodeMode (_p1 : Byte) (_p2 : Byte) (s : State) : Host.Outcome State Fault Refusal :=
  .next (clearCmd (setMouse false s))

/-- SET_MOUSE_THRESHOLD (R377): accepted and ignored. -/
def execSetMouseThreshold (_p1 : Byte) (_p2 : Byte) (s : State) : Host.Outcome State Fault Refusal :=
  .next (clearCmd s)

/-- SET_MOUSE_SCALE (R377): accepted and ignored. -/
def execSetMouseScale (_p1 : Byte) (_p2 : Byte) (s : State) : Host.Outcome State Fault Refusal :=
  .next (clearCmd s)

/-- INTERROGATE_MOUSE_POSITION (R377): accepted and ignored. -/
def execInterrogateMousePosition (s : State) : Host.Outcome State Fault Refusal :=
  .next (clearCmd s)

/-- LOAD_MOUSE_POSITION (R377): accepted and ignored. -/
def execLoadMousePosition (_p1 : Byte) (_p2 : Byte) (_p3 : Byte) (_p4 : Byte) (_p5 : Byte) (s : State) :
    Host.Outcome State Fault Refusal :=
  .next (clearCmd s)

/-- SET_Y_AT_BOTTOM (R377): accepted and ignored. -/
def execSetYAtBottom (s : State) : Host.Outcome State Fault Refusal :=
  .next (clearCmd s)

/-- SET_Y_AT_TOP (R377): accepted and ignored. -/
def execSetYAtTop (s : State) : Host.Outcome State Fault Refusal :=
  .next (clearCmd s)

/-- RESUME (R377): accepted and ignored. -/
def execResume (s : State) : Host.Outcome State Fault Refusal :=
  .next (clearCmd s)

/-- DISABLE_MOUSE (R374). -/
def execDisableMouse (s : State) : Host.Outcome State Fault Refusal :=
  .next (clearCmd (setMouse false s))

/-- PAUSE_OUTPUT (R377): accepted and ignored. -/
def execPauseOutput (s : State) : Host.Outcome State Fault Refusal :=
  .next (clearCmd s)

/-- SET_JOYSTICK_EVENT_REPORTING (R375). -/
def execSetJoystickEventReporting (s : State) : Host.Outcome State Fault Refusal :=
  .next (clearCmd (ikbdJoyEvents s))

/-- SET_JOYSTICK_INTERROGATION_MODE (R375). -/
def execSetJoystickInterrogationMode (s : State) : Host.Outcome State Fault Refusal :=
  .next (clearCmd (setJoy false s))

/-- JOYSTICK_INTERROGATE (R375). -/
def execJoystickInterrogate (s : State) : Host.Outcome State Fault Refusal :=
  .next (clearCmd (ikbdJoyInterrogate s))

/-- SET_JOYSTICK_MONITORING (R377): accepted and ignored. -/
def execSetJoystickMonitoring (_p1 : Byte) (s : State) : Host.Outcome State Fault Refusal :=
  .next (clearCmd s)

/-- SET_FIRE_BUTTON_MONITORING (R377): accepted and ignored. -/
def execSetFireButtonMonitoring (s : State) : Host.Outcome State Fault Refusal :=
  .next (clearCmd s)

/-- SET_JOYSTICK_KEYCODE_MODE (R377): accepted and ignored. -/
def execSetJoystickKeycodeMode (_p1 : Byte) (_p2 : Byte) (_p3 : Byte) (_p4 : Byte) (_p5 : Byte) (_p6 : Byte) (s : State) :
    Host.Outcome State Fault Refusal :=
  .next (clearCmd s)

/-- DISABLE_JOYSTICKS (R375). -/
def execDisableJoysticks (s : State) : Host.Outcome State Fault Refusal :=
  .next (clearCmd (setJoy false s))

/-- TIME_OF_DAY_CLOCK_SET (R377): accepted and ignored. -/
def execTimeOfDayClockSet (_p1 : Byte) (_p2 : Byte) (_p3 : Byte) (_p4 : Byte) (_p5 : Byte) (_p6 : Byte) (s : State) :
    Host.Outcome State Fault Refusal :=
  .next (clearCmd s)

/-- INTERROGATE_TIME_OF_DAY_CLOCK (R377). -/
def execInterrogateTimeOfDayClock (s : State) : Host.Outcome State Fault Refusal :=
  .next (clearCmd (ikbdClock s))

/-- MEMORY_LOAD (R377): accepted and ignored. -/
def execMemoryLoad (_p1 : Byte) (_p2 : Byte) (_p3 : Byte) (s : State) : Host.Outcome State Fault Refusal :=
  .next (clearCmd s)

/-- MEMORY_READ (R377): accepted and ignored. -/
def execMemoryRead (_p1 : Byte) (_p2 : Byte) (s : State) : Host.Outcome State Fault Refusal :=
  .next (clearCmd s)

/-- CONTROLLER_EXECUTE (R377): accepted and ignored. -/
def execControllerExecute (_p1 : Byte) (_p2 : Byte) (s : State) : Host.Outcome State Fault Refusal :=
  .next (clearCmd s)

/-- RESET (R376). -/
def execIkbdReset (p1 : Byte) (s : State) : Host.Outcome State Fault Refusal :=
  .next (clearCmd (ikbdResetCmd p1 s))

/-- STATUS_INQUIRY_87 (R377): accepted and ignored. -/
def execStatusInquiry87 (s : State) : Host.Outcome State Fault Refusal :=
  .next (clearCmd s)

/-- STATUS_INQUIRY_88 (R377): accepted and ignored. -/
def execStatusInquiry88 (s : State) : Host.Outcome State Fault Refusal :=
  .next (clearCmd s)

/-- STATUS_INQUIRY_89 (R377): accepted and ignored. -/
def execStatusInquiry89 (s : State) : Host.Outcome State Fault Refusal :=
  .next (clearCmd s)

/-- STATUS_INQUIRY_8A (R377): accepted and ignored. -/
def execStatusInquiry8A (s : State) : Host.Outcome State Fault Refusal :=
  .next (clearCmd s)

/-- STATUS_INQUIRY_8B (R377): accepted and ignored. -/
def execStatusInquiry8B (s : State) : Host.Outcome State Fault Refusal :=
  .next (clearCmd s)

/-- STATUS_INQUIRY_8C (R377): accepted and ignored. -/
def execStatusInquiry8C (s : State) : Host.Outcome State Fault Refusal :=
  .next (clearCmd s)

/-- STATUS_INQUIRY_8F (R377): accepted and ignored. -/
def execStatusInquiry8F (s : State) : Host.Outcome State Fault Refusal :=
  .next (clearCmd s)

/-- STATUS_INQUIRY_90 (R377): accepted and ignored. -/
def execStatusInquiry90 (s : State) : Host.Outcome State Fault Refusal :=
  .next (clearCmd s)

/-- STATUS_INQUIRY_92 (R377): accepted and ignored. -/
def execStatusInquiry92 (s : State) : Host.Outcome State Fault Refusal :=
  .next (clearCmd s)

/-- STATUS_INQUIRY_94 (R377): accepted and ignored. -/
def execStatusInquiry94 (s : State) : Host.Outcome State Fault Refusal :=
  .next (clearCmd s)

/-- STATUS_INQUIRY_95 (R377): accepted and ignored. -/
def execStatusInquiry95 (s : State) : Host.Outcome State Fault Refusal :=
  .next (clearCmd s)

/-- STATUS_INQUIRY_99 (R377): accepted and ignored. -/
def execStatusInquiry99 (s : State) : Host.Outcome State Fault Refusal :=
  .next (clearCmd s)

/-- STATUS_INQUIRY_9A (R377): accepted and ignored. -/
def execStatusInquiry9A (s : State) : Host.Outcome State Fault Refusal :=
  .next (clearCmd s)

/-- UNKNOWN_FIRST_BYTE: discarded at once (R370, R145). -/
def execUnknownFirstByte (_b : Byte) (s : State) : Host.Outcome State Fault Refusal :=
  .next (clearCmd s)

end Sys2Proof.Machine
end

