-- ==== Sys2Proof/Machine/MfpRegisters.lean ====
section
/-! DEFINITION. Machine/MfpRegisters.lean: the MFP68901 register accesses (41_mfp68901.md R201..R216). No
read has a side effect. -/

namespace Sys2Proof.Machine

/-- MFP_GPIP_RD8 (R201). -/
def execMfpGpipRd8 (s : State) : Host.Outcome State Fault Refusal :=
  .next (answer8 (mfpRead s.mfp .gpip) s)

/-- MFP_GPIP_WR8 (R202). -/
def execMfpGpipWr8 (v : Byte) (s : State) : Host.Outcome State Fault Refusal :=
  .next (mfpWrite .gpip v s)

/-- MFP_AER_RD8 (R203). -/
def execMfpAerRd8 (s : State) : Host.Outcome State Fault Refusal :=
  .next (answer8 (mfpRead s.mfp .aer) s)

/-- MFP_AER_WR8 (R203). -/
def execMfpAerWr8 (v : Byte) (s : State) : Host.Outcome State Fault Refusal :=
  .next (mfpWrite .aer v s)

/-- MFP_DDR_RD8 (R204). -/
def execMfpDdrRd8 (s : State) : Host.Outcome State Fault Refusal :=
  .next (answer8 (mfpRead s.mfp .ddr) s)

/-- MFP_DDR_WR8 (R204). -/
def execMfpDdrWr8 (v : Byte) (s : State) : Host.Outcome State Fault Refusal :=
  .next (mfpWrite .ddr v s)

/-- MFP_IERA_RD8 (R205). -/
def execMfpIeraRd8 (s : State) : Host.Outcome State Fault Refusal :=
  .next (answer8 (mfpRead s.mfp .iera) s)

/-- MFP_IERA_WR8 (R206). -/
def execMfpIeraWr8 (v : Byte) (s : State) : Host.Outcome State Fault Refusal :=
  .next (mfpWrite .iera v s)

/-- MFP_IERB_RD8 (R205). -/
def execMfpIerbRd8 (s : State) : Host.Outcome State Fault Refusal :=
  .next (answer8 (mfpRead s.mfp .ierb) s)

/-- MFP_IERB_WR8 (R206). -/
def execMfpIerbWr8 (v : Byte) (s : State) : Host.Outcome State Fault Refusal :=
  .next (mfpWrite .ierb v s)

/-- MFP_IPRA_RD8 (R207). -/
def execMfpIpraRd8 (s : State) : Host.Outcome State Fault Refusal :=
  .next (answer8 (mfpRead s.mfp .ipra) s)

/-- MFP_IPRA_WR8 (R208). -/
def execMfpIpraWr8 (v : Byte) (s : State) : Host.Outcome State Fault Refusal :=
  .next (mfpWrite .ipra v s)

/-- MFP_IPRB_RD8 (R207). -/
def execMfpIprbRd8 (s : State) : Host.Outcome State Fault Refusal :=
  .next (answer8 (mfpRead s.mfp .iprb) s)

/-- MFP_IPRB_WR8 (R208). -/
def execMfpIprbWr8 (v : Byte) (s : State) : Host.Outcome State Fault Refusal :=
  .next (mfpWrite .iprb v s)

/-- MFP_ISRA_RD8 (R209). -/
def execMfpIsraRd8 (s : State) : Host.Outcome State Fault Refusal :=
  .next (answer8 (mfpRead s.mfp .isra) s)

/-- MFP_ISRA_WR8 (R210). -/
def execMfpIsraWr8 (v : Byte) (s : State) : Host.Outcome State Fault Refusal :=
  .next (mfpWrite .isra v s)

/-- MFP_ISRB_RD8 (R209). -/
def execMfpIsrbRd8 (s : State) : Host.Outcome State Fault Refusal :=
  .next (answer8 (mfpRead s.mfp .isrb) s)

/-- MFP_ISRB_WR8 (R210). -/
def execMfpIsrbWr8 (v : Byte) (s : State) : Host.Outcome State Fault Refusal :=
  .next (mfpWrite .isrb v s)

/-- MFP_IMRA_RD8 (R211). -/
def execMfpImraRd8 (s : State) : Host.Outcome State Fault Refusal :=
  .next (answer8 (mfpRead s.mfp .imra) s)

/-- MFP_IMRA_WR8 (R211). -/
def execMfpImraWr8 (v : Byte) (s : State) : Host.Outcome State Fault Refusal :=
  .next (mfpWrite .imra v s)

/-- MFP_IMRB_RD8 (R211). -/
def execMfpImrbRd8 (s : State) : Host.Outcome State Fault Refusal :=
  .next (answer8 (mfpRead s.mfp .imrb) s)

/-- MFP_IMRB_WR8 (R211). -/
def execMfpImrbWr8 (v : Byte) (s : State) : Host.Outcome State Fault Refusal :=
  .next (mfpWrite .imrb v s)

/-- MFP_VR_RD8 (R212). -/
def execMfpVrRd8 (s : State) : Host.Outcome State Fault Refusal :=
  .next (answer8 (mfpRead s.mfp .vr) s)

/-- MFP_VR_WR8 (R213). -/
def execMfpVrWr8 (v : Byte) (s : State) : Host.Outcome State Fault Refusal :=
  .next (mfpWrite .vr v s)

/-- MFP_TACR_RD8 (R216). -/
def execMfpTacrRd8 (s : State) : Host.Outcome State Fault Refusal :=
  .next (answer8 (mfpRead s.mfp .tacr) s)

/-- MFP_TACR_WR8 (R216). -/
def execMfpTacrWr8 (v : Byte) (s : State) : Host.Outcome State Fault Refusal :=
  .next (mfpWrite .tacr v s)

/-- MFP_TBCR_RD8 (R216). -/
def execMfpTbcrRd8 (s : State) : Host.Outcome State Fault Refusal :=
  .next (answer8 (mfpRead s.mfp .tbcr) s)

/-- MFP_TBCR_WR8 (R216). -/
def execMfpTbcrWr8 (v : Byte) (s : State) : Host.Outcome State Fault Refusal :=
  .next (mfpWrite .tbcr v s)

/-- MFP_TCDCR_RD8 (R216). -/
def execMfpTcdcrRd8 (s : State) : Host.Outcome State Fault Refusal :=
  .next (answer8 (mfpRead s.mfp .tcdcr) s)

/-- MFP_TCDCR_WR8 (R216). -/
def execMfpTcdcrWr8 (v : Byte) (s : State) : Host.Outcome State Fault Refusal :=
  .next (mfpWrite .tcdcr v s)

/-- MFP_TADR_RD8 (R214). -/
def execMfpTadrRd8 (s : State) : Host.Outcome State Fault Refusal :=
  .next (answer8 (mfpRead s.mfp .tadr) s)

/-- MFP_TADR_WR8 (R215). -/
def execMfpTadrWr8 (v : Byte) (s : State) : Host.Outcome State Fault Refusal :=
  .next (mfpWrite .tadr v s)

/-- MFP_TBDR_RD8 (R214). -/
def execMfpTbdrRd8 (s : State) : Host.Outcome State Fault Refusal :=
  .next (answer8 (mfpRead s.mfp .tbdr) s)

/-- MFP_TBDR_WR8 (R215). -/
def execMfpTbdrWr8 (v : Byte) (s : State) : Host.Outcome State Fault Refusal :=
  .next (mfpWrite .tbdr v s)

/-- MFP_TCDR_RD8 (R214). -/
def execMfpTcdrRd8 (s : State) : Host.Outcome State Fault Refusal :=
  .next (answer8 (mfpRead s.mfp .tcdr) s)

/-- MFP_TCDR_WR8 (R215). -/
def execMfpTcdrWr8 (v : Byte) (s : State) : Host.Outcome State Fault Refusal :=
  .next (mfpWrite .tcdr v s)

/-- MFP_TDDR_RD8 (R214). -/
def execMfpTddrRd8 (s : State) : Host.Outcome State Fault Refusal :=
  .next (answer8 (mfpRead s.mfp .tddr) s)

/-- MFP_TDDR_WR8 (R215). -/
def execMfpTddrWr8 (v : Byte) (s : State) : Host.Outcome State Fault Refusal :=
  .next (mfpWrite .tddr v s)

end Sys2Proof.Machine
end

