-- ==== Sys2Proof/Machine/PlainRegisters.lean ====
section
/-! DEFINITION. Machine/PlainRegisters.lean: the accesses to plain storage (20_memory.md R89; 30_encoding.md R132)
and to the bus-error ranges (R90, R135), of every width. -/

namespace Sys2Proof.Machine

/-- MMU_CONFIG: an access at 0xFF8001 (R89, R132). -/
def execMmuConfig (acc : Access) (s : State) : Host.Outcome State Fault Refusal :=
  busAccess 0xFF8001#24 acc s

/-- VIDEO_BASE_HI: an access at 0xFF8201 (R89, R132). -/
def execVideoBaseHi (acc : Access) (s : State) : Host.Outcome State Fault Refusal :=
  busAccess 0xFF8201#24 acc s

/-- VIDEO_BASE_MID: an access at 0xFF8203 (R89, R132). -/
def execVideoBaseMid (acc : Access) (s : State) : Host.Outcome State Fault Refusal :=
  busAccess 0xFF8203#24 acc s

/-- VIDEO_COUNTER_HI: an access at 0xFF8205 (R89, R132). -/
def execVideoCounterHi (acc : Access) (s : State) : Host.Outcome State Fault Refusal :=
  busAccess 0xFF8205#24 acc s

/-- VIDEO_COUNTER_MID: an access at 0xFF8207 (R89, R132). -/
def execVideoCounterMid (acc : Access) (s : State) : Host.Outcome State Fault Refusal :=
  busAccess 0xFF8207#24 acc s

/-- VIDEO_COUNTER_LO: an access at 0xFF8209 (R89, R132). -/
def execVideoCounterLo (acc : Access) (s : State) : Host.Outcome State Fault Refusal :=
  busAccess 0xFF8209#24 acc s

/-- SYNC_MODE: an access at 0xFF820A (R89, R132). -/
def execSyncMode (acc : Access) (s : State) : Host.Outcome State Fault Refusal :=
  busAccess 0xFF820A#24 acc s

/-- PALETTE: an access at 0xFF8240 + off (R89, R132, R418). -/
def execPalette (off : BitVec 5) (acc : Access) (s : State) : Host.Outcome State Fault Refusal :=
  busAccess (0xFF8240#24 + off.setWidth 24) acc s

/-- RESOLUTION: an access at 0xFF8260 (R89, R132). -/
def execResolution (acc : Access) (s : State) : Host.Outcome State Fault Refusal :=
  busAccess 0xFF8260#24 acc s

/-- UNCLAIMED_IO: an access at an I/O address with no handler (R89). -/
def execUnclaimedIo (a : Addr) (acc : Access) (s : State) : Host.Outcome State Fault Refusal :=
  busAccess a acc s

/-- BERR_STE_DMA_SOUND: an access that touches the range (R90): the bus-error protocol (60_exceptions.md R452). -/
def execBerrSteDmaSound (a : Addr) (acc : Access) (s : State) : Host.Outcome State Fault Refusal :=
  busAccess a acc s

/-- BERR_BLITTER: an access that touches the range (R90): the bus-error protocol (60_exceptions.md R452). -/
def execBerrBlitter (a : Addr) (acc : Access) (s : State) : Host.Outcome State Fault Refusal :=
  busAccess a acc s

/-- BERR_STE_JOYSTICK: an access that touches the range (R90): the bus-error protocol (60_exceptions.md R452). -/
def execBerrSteJoystick (a : Addr) (acc : Access) (s : State) : Host.Outcome State Fault Refusal :=
  busAccess a acc s

end Sys2Proof.Machine
end

