-- ==== Sys2Proof/Machine/YmRegisters.lean ====
section
/-! DEFINITION. Machine/YmRegisters.lean: the YM2149 register accesses at 0xFF8800 and 0xFF8802
(42_ym2149.md R250..R253), and the register writes of 30_encoding.md R147. -/

namespace Sys2Proof.Machine

/-- YM_SELECT_WR8: byte write of 0xFF8800 (R250). -/
def execYmSelectWr8 (v : Byte) (s : State) : Host.Outcome State Fault Refusal :=
  .next (ymSelect v s)

/-- YM_DATA_RD8: byte read of 0xFF8800 (R251). -/
def execYmDataRd8 (s : State) : Host.Outcome State Fault Refusal :=
  .next (answer8 (ymReadData s) s)

/-- YM_DATA_WR8: byte write of 0xFF8802 (R252). -/
def execYmDataWr8 (v : Byte) (s : State) : Host.Outcome State Fault Refusal :=
  .next (ymWriteData v s)

/-- YM_FF8802_RD8: byte read of 0xFF8802 (R253): 0xFF. -/
def execYmFf8802Rd8 (s : State) : Host.Outcome State Fault Refusal :=
  .next (answer8 0xFF s)

/-- A YM register write (30_encoding.md R147): select `n`, then write the data. -/
def ymRegisterWrite (n v : Byte) (s : State) : State := ymWriteData v (ymSelect n s)

/-- YM_TONE_A_FINE: register 0 (R252, R256). -/
def execYmToneAFine (v : Byte) (s : State) : Host.Outcome State Fault Refusal :=
  .next (ymRegisterWrite 0 v s)

/-- YM_TONE_A_COARSE: register 1 (R252, R256). -/
def execYmToneACoarse (v : Byte) (s : State) : Host.Outcome State Fault Refusal :=
  .next (ymRegisterWrite 1 v s)

/-- YM_TONE_B_FINE: register 2 (R252, R256). -/
def execYmToneBFine (v : Byte) (s : State) : Host.Outcome State Fault Refusal :=
  .next (ymRegisterWrite 2 v s)

/-- YM_TONE_B_COARSE: register 3 (R252, R256). -/
def execYmToneBCoarse (v : Byte) (s : State) : Host.Outcome State Fault Refusal :=
  .next (ymRegisterWrite 3 v s)

/-- YM_TONE_C_FINE: register 4 (R252, R256). -/
def execYmToneCFine (v : Byte) (s : State) : Host.Outcome State Fault Refusal :=
  .next (ymRegisterWrite 4 v s)

/-- YM_TONE_C_COARSE: register 5 (R252, R256). -/
def execYmToneCCoarse (v : Byte) (s : State) : Host.Outcome State Fault Refusal :=
  .next (ymRegisterWrite 5 v s)

/-- YM_NOISE_PERIOD: register 6 (R252, R256). -/
def execYmNoisePeriod (v : Byte) (s : State) : Host.Outcome State Fault Refusal :=
  .next (ymRegisterWrite 6 v s)

/-- YM_MIXER_ENABLE: register 7 (R252, R256). -/
def execYmMixerEnable (v : Byte) (s : State) : Host.Outcome State Fault Refusal :=
  .next (ymRegisterWrite 7 v s)

/-- YM_LEVEL_A: register 8 (R252, R256). -/
def execYmLevelA (v : Byte) (s : State) : Host.Outcome State Fault Refusal :=
  .next (ymRegisterWrite 8 v s)

/-- YM_LEVEL_B: register 9 (R252, R256). -/
def execYmLevelB (v : Byte) (s : State) : Host.Outcome State Fault Refusal :=
  .next (ymRegisterWrite 9 v s)

/-- YM_LEVEL_C: register 10 (R252, R256). -/
def execYmLevelC (v : Byte) (s : State) : Host.Outcome State Fault Refusal :=
  .next (ymRegisterWrite 10 v s)

/-- YM_ENV_PERIOD_FINE: register 11 (R252, R256). -/
def execYmEnvPeriodFine (v : Byte) (s : State) : Host.Outcome State Fault Refusal :=
  .next (ymRegisterWrite 11 v s)

/-- YM_ENV_PERIOD_COARSE: register 12 (R252, R256). -/
def execYmEnvPeriodCoarse (v : Byte) (s : State) : Host.Outcome State Fault Refusal :=
  .next (ymRegisterWrite 12 v s)

/-- YM_ENV_SHAPE: register 13 (R252, R254: the envelope restarts). -/
def execYmEnvShape (v : Byte) (s : State) : Host.Outcome State Fault Refusal :=
  .next (ymRegisterWrite 13 v s)

/-- YM_PORT_A: register 14 (R252, R255: drive and side). -/
def execYmPortA (v : Byte) (s : State) : Host.Outcome State Fault Refusal :=
  .next (ymRegisterWrite 14 v s)

/-- YM_PORT_B: register 15 (R252, R256). -/
def execYmPortB (v : Byte) (s : State) : Host.Outcome State Fault Refusal :=
  .next (ymRegisterWrite 15 v s)

end Sys2Proof.Machine
end

