-- ==== Sys2Proof/Machine/Dispatch.lean ====
section
/-! DEFINITION. Machine/Dispatch.lean: the meaning of each operation of the opcode table. -/

namespace Sys2Proof.Machine

def exec (i : Instr) (s : State) : Host.Outcome State Fault Refusal :=
  match i with
  | .fdcDmaDataRd16 => Sys2Proof.Machine.execFdcDmaDataRd16 s
  | .fdcDmaDataWr16 v => Sys2Proof.Machine.execFdcDmaDataWr16 v s
  | .fdcDmaDataHiRd8 => Sys2Proof.Machine.execFdcDmaDataHiRd8 s
  | .fdcDmaDataHiWr8 v => Sys2Proof.Machine.execFdcDmaDataHiWr8 v s
  | .fdcDmaDataLoRd8 => Sys2Proof.Machine.execFdcDmaDataLoRd8 s
  | .fdcDmaDataLoWr8 v => Sys2Proof.Machine.execFdcDmaDataLoWr8 v s
  | .dmaStatusRd16 => Sys2Proof.Machine.execDmaStatusRd16 s
  | .dmaModeWr16 v => Sys2Proof.Machine.execDmaModeWr16 v s
  | .dmaStatusHiRd8 => Sys2Proof.Machine.execDmaStatusHiRd8 s
  | .dmaModeHiWr8 v => Sys2Proof.Machine.execDmaModeHiWr8 v s
  | .dmaStatusLoRd8 => Sys2Proof.Machine.execDmaStatusLoRd8 s
  | .dmaModeLoWr8 v => Sys2Proof.Machine.execDmaModeLoWr8 v s
  | .dmaAddrHiRd8 => Sys2Proof.Machine.execDmaAddrHiRd8 s
  | .dmaAddrHiWr8 v => Sys2Proof.Machine.execDmaAddrHiWr8 v s
  | .dmaAddrMidRd8 => Sys2Proof.Machine.execDmaAddrMidRd8 s
  | .dmaAddrMidWr8 v => Sys2Proof.Machine.execDmaAddrMidWr8 v s
  | .dmaAddrLoRd8 => Sys2Proof.Machine.execDmaAddrLoRd8 s
  | .dmaAddrLoWr8 v => Sys2Proof.Machine.execDmaAddrLoWr8 v s
  | .ymSelectWr8 v => Sys2Proof.Machine.execYmSelectWr8 v s
  | .ymDataRd8 => Sys2Proof.Machine.execYmDataRd8 s
  | .ymDataWr8 v => Sys2Proof.Machine.execYmDataWr8 v s
  | .ymFf8802Rd8 => Sys2Proof.Machine.execYmFf8802Rd8 s
  | .mfpGpipRd8 => Sys2Proof.Machine.execMfpGpipRd8 s
  | .mfpGpipWr8 v => Sys2Proof.Machine.execMfpGpipWr8 v s
  | .mfpAerRd8 => Sys2Proof.Machine.execMfpAerRd8 s
  | .mfpAerWr8 v => Sys2Proof.Machine.execMfpAerWr8 v s
  | .mfpDdrRd8 => Sys2Proof.Machine.execMfpDdrRd8 s
  | .mfpDdrWr8 v => Sys2Proof.Machine.execMfpDdrWr8 v s
  | .mfpIeraRd8 => Sys2Proof.Machine.execMfpIeraRd8 s
  | .mfpIeraWr8 v => Sys2Proof.Machine.execMfpIeraWr8 v s
  | .mfpIerbRd8 => Sys2Proof.Machine.execMfpIerbRd8 s
  | .mfpIerbWr8 v => Sys2Proof.Machine.execMfpIerbWr8 v s
  | .mfpIpraRd8 => Sys2Proof.Machine.execMfpIpraRd8 s
  | .mfpIpraWr8 v => Sys2Proof.Machine.execMfpIpraWr8 v s
  | .mfpIprbRd8 => Sys2Proof.Machine.execMfpIprbRd8 s
  | .mfpIprbWr8 v => Sys2Proof.Machine.execMfpIprbWr8 v s
  | .mfpIsraRd8 => Sys2Proof.Machine.execMfpIsraRd8 s
  | .mfpIsraWr8 v => Sys2Proof.Machine.execMfpIsraWr8 v s
  | .mfpIsrbRd8 => Sys2Proof.Machine.execMfpIsrbRd8 s
  | .mfpIsrbWr8 v => Sys2Proof.Machine.execMfpIsrbWr8 v s
  | .mfpImraRd8 => Sys2Proof.Machine.execMfpImraRd8 s
  | .mfpImraWr8 v => Sys2Proof.Machine.execMfpImraWr8 v s
  | .mfpImrbRd8 => Sys2Proof.Machine.execMfpImrbRd8 s
  | .mfpImrbWr8 v => Sys2Proof.Machine.execMfpImrbWr8 v s
  | .mfpVrRd8 => Sys2Proof.Machine.execMfpVrRd8 s
  | .mfpVrWr8 v => Sys2Proof.Machine.execMfpVrWr8 v s
  | .mfpTacrRd8 => Sys2Proof.Machine.execMfpTacrRd8 s
  | .mfpTacrWr8 v => Sys2Proof.Machine.execMfpTacrWr8 v s
  | .mfpTbcrRd8 => Sys2Proof.Machine.execMfpTbcrRd8 s
  | .mfpTbcrWr8 v => Sys2Proof.Machine.execMfpTbcrWr8 v s
  | .mfpTcdcrRd8 => Sys2Proof.Machine.execMfpTcdcrRd8 s
  | .mfpTcdcrWr8 v => Sys2Proof.Machine.execMfpTcdcrWr8 v s
  | .mfpTadrRd8 => Sys2Proof.Machine.execMfpTadrRd8 s
  | .mfpTadrWr8 v => Sys2Proof.Machine.execMfpTadrWr8 v s
  | .mfpTbdrRd8 => Sys2Proof.Machine.execMfpTbdrRd8 s
  | .mfpTbdrWr8 v => Sys2Proof.Machine.execMfpTbdrWr8 v s
  | .mfpTcdrRd8 => Sys2Proof.Machine.execMfpTcdrRd8 s
  | .mfpTcdrWr8 v => Sys2Proof.Machine.execMfpTcdrWr8 v s
  | .mfpTddrRd8 => Sys2Proof.Machine.execMfpTddrRd8 s
  | .mfpTddrWr8 v => Sys2Proof.Machine.execMfpTddrWr8 v s
  | .aciaStatusRd8 => Sys2Proof.Machine.execAciaStatusRd8 s
  | .aciaControlWr8 v => Sys2Proof.Machine.execAciaControlWr8 v s
  | .aciaDataRd8 => Sys2Proof.Machine.execAciaDataRd8 s
  | .aciaDataWr8 v => Sys2Proof.Machine.execAciaDataWr8 v s
  | .mmuConfig acc => Sys2Proof.Machine.execMmuConfig acc s
  | .videoBaseHi acc => Sys2Proof.Machine.execVideoBaseHi acc s
  | .videoBaseMid acc => Sys2Proof.Machine.execVideoBaseMid acc s
  | .videoCounterHi acc => Sys2Proof.Machine.execVideoCounterHi acc s
  | .videoCounterMid acc => Sys2Proof.Machine.execVideoCounterMid acc s
  | .videoCounterLo acc => Sys2Proof.Machine.execVideoCounterLo acc s
  | .syncMode acc => Sys2Proof.Machine.execSyncMode acc s
  | .palette off acc => Sys2Proof.Machine.execPalette off acc s
  | .resolution acc => Sys2Proof.Machine.execResolution acc s
  | .unclaimedIo a acc => Sys2Proof.Machine.execUnclaimedIo a acc s
  | .berrSteDmaSound a acc => Sys2Proof.Machine.execBerrSteDmaSound a acc s
  | .berrBlitter a acc => Sys2Proof.Machine.execBerrBlitter a acc s
  | .berrSteJoystick a acc => Sys2Proof.Machine.execBerrSteJoystick a acc s
  | .fdcRestore fl => Sys2Proof.Machine.execFdcRestore fl s
  | .fdcSeek fl => Sys2Proof.Machine.execFdcSeek fl s
  | .fdcStep fl => Sys2Proof.Machine.execFdcStep fl s
  | .fdcStepU fl => Sys2Proof.Machine.execFdcStepU fl s
  | .fdcStepIn fl => Sys2Proof.Machine.execFdcStepIn fl s
  | .fdcStepInU fl => Sys2Proof.Machine.execFdcStepInU fl s
  | .fdcStepOut fl => Sys2Proof.Machine.execFdcStepOut fl s
  | .fdcStepOutU fl => Sys2Proof.Machine.execFdcStepOutU fl s
  | .fdcReadSector fl => Sys2Proof.Machine.execFdcReadSector fl s
  | .fdcReadSectorMulti fl => Sys2Proof.Machine.execFdcReadSectorMulti fl s
  | .fdcWriteSector fl => Sys2Proof.Machine.execFdcWriteSector fl s
  | .fdcWriteSectorMulti fl => Sys2Proof.Machine.execFdcWriteSectorMulti fl s
  | .fdcReadAddress fl => Sys2Proof.Machine.execFdcReadAddress fl s
  | .fdcForceInterrupt fl => Sys2Proof.Machine.execFdcForceInterrupt fl s
  | .fdcReadTrack fl => Sys2Proof.Machine.execFdcReadTrack fl s
  | .fdcWriteTrack fl => Sys2Proof.Machine.execFdcWriteTrack fl s
  | .setMouseButtonAction p1 => Sys2Proof.Machine.execSetMouseButtonAction p1 s
  | .setRelativeMouse => Sys2Proof.Machine.execSetRelativeMouse s
  | .setAbsoluteMouse p1 p2 p3 p4 => Sys2Proof.Machine.execSetAbsoluteMouse p1 p2 p3 p4 s
  | .setMouseKeycodeMode p1 p2 => Sys2Proof.Machine.execSetMouseKeycodeMode p1 p2 s
  | .setMouseThreshold p1 p2 => Sys2Proof.Machine.execSetMouseThreshold p1 p2 s
  | .setMouseScale p1 p2 => Sys2Proof.Machine.execSetMouseScale p1 p2 s
  | .interrogateMousePosition => Sys2Proof.Machine.execInterrogateMousePosition s
  | .loadMousePosition p1 p2 p3 p4 p5 => Sys2Proof.Machine.execLoadMousePosition p1 p2 p3 p4 p5 s
  | .setYAtBottom => Sys2Proof.Machine.execSetYAtBottom s
  | .setYAtTop => Sys2Proof.Machine.execSetYAtTop s
  | .resume => Sys2Proof.Machine.execResume s
  | .disableMouse => Sys2Proof.Machine.execDisableMouse s
  | .pauseOutput => Sys2Proof.Machine.execPauseOutput s
  | .setJoystickEventReporting => Sys2Proof.Machine.execSetJoystickEventReporting s
  | .setJoystickInterrogationMode => Sys2Proof.Machine.execSetJoystickInterrogationMode s
  | .joystickInterrogate => Sys2Proof.Machine.execJoystickInterrogate s
  | .setJoystickMonitoring p1 => Sys2Proof.Machine.execSetJoystickMonitoring p1 s
  | .setFireButtonMonitoring => Sys2Proof.Machine.execSetFireButtonMonitoring s
  | .setJoystickKeycodeMode p1 p2 p3 p4 p5 p6 => Sys2Proof.Machine.execSetJoystickKeycodeMode p1 p2 p3 p4 p5 p6 s
  | .disableJoysticks => Sys2Proof.Machine.execDisableJoysticks s
  | .timeOfDayClockSet p1 p2 p3 p4 p5 p6 => Sys2Proof.Machine.execTimeOfDayClockSet p1 p2 p3 p4 p5 p6 s
  | .interrogateTimeOfDayClock => Sys2Proof.Machine.execInterrogateTimeOfDayClock s
  | .memoryLoad p1 p2 p3 => Sys2Proof.Machine.execMemoryLoad p1 p2 p3 s
  | .memoryRead p1 p2 => Sys2Proof.Machine.execMemoryRead p1 p2 s
  | .controllerExecute p1 p2 => Sys2Proof.Machine.execControllerExecute p1 p2 s
  | .ikbdReset p1 => Sys2Proof.Machine.execIkbdReset p1 s
  | .statusInquiry87 => Sys2Proof.Machine.execStatusInquiry87 s
  | .statusInquiry88 => Sys2Proof.Machine.execStatusInquiry88 s
  | .statusInquiry89 => Sys2Proof.Machine.execStatusInquiry89 s
  | .statusInquiry8A => Sys2Proof.Machine.execStatusInquiry8A s
  | .statusInquiry8B => Sys2Proof.Machine.execStatusInquiry8B s
  | .statusInquiry8C => Sys2Proof.Machine.execStatusInquiry8C s
  | .statusInquiry8F => Sys2Proof.Machine.execStatusInquiry8F s
  | .statusInquiry90 => Sys2Proof.Machine.execStatusInquiry90 s
  | .statusInquiry92 => Sys2Proof.Machine.execStatusInquiry92 s
  | .statusInquiry94 => Sys2Proof.Machine.execStatusInquiry94 s
  | .statusInquiry95 => Sys2Proof.Machine.execStatusInquiry95 s
  | .statusInquiry99 => Sys2Proof.Machine.execStatusInquiry99 s
  | .statusInquiry9A => Sys2Proof.Machine.execStatusInquiry9A s
  | .unknownFirstByte b => Sys2Proof.Machine.execUnknownFirstByte b s
  | .ymToneAFine v => Sys2Proof.Machine.execYmToneAFine v s
  | .ymToneACoarse v => Sys2Proof.Machine.execYmToneACoarse v s
  | .ymToneBFine v => Sys2Proof.Machine.execYmToneBFine v s
  | .ymToneBCoarse v => Sys2Proof.Machine.execYmToneBCoarse v s
  | .ymToneCFine v => Sys2Proof.Machine.execYmToneCFine v s
  | .ymToneCCoarse v => Sys2Proof.Machine.execYmToneCCoarse v s
  | .ymNoisePeriod v => Sys2Proof.Machine.execYmNoisePeriod v s
  | .ymMixerEnable v => Sys2Proof.Machine.execYmMixerEnable v s
  | .ymLevelA v => Sys2Proof.Machine.execYmLevelA v s
  | .ymLevelB v => Sys2Proof.Machine.execYmLevelB v s
  | .ymLevelC v => Sys2Proof.Machine.execYmLevelC v s
  | .ymEnvPeriodFine v => Sys2Proof.Machine.execYmEnvPeriodFine v s
  | .ymEnvPeriodCoarse v => Sys2Proof.Machine.execYmEnvPeriodCoarse v s
  | .ymEnvShape v => Sys2Proof.Machine.execYmEnvShape v s
  | .ymPortA v => Sys2Proof.Machine.execYmPortA v s
  | .ymPortB v => Sys2Proof.Machine.execYmPortB v s
  | .iackL1 => Sys2Proof.Machine.execIackL1 s
  | .iackL2 => Sys2Proof.Machine.execIackL2 s
  | .iackL3 => Sys2Proof.Machine.execIackL3 s
  | .iackL4 => Sys2Proof.Machine.execIackL4 s
  | .iackL5 => Sys2Proof.Machine.execIackL5 s
  | .iackL6 => Sys2Proof.Machine.execIackL6 s
  | .iackL7 => Sys2Proof.Machine.execIackL7 s

end Sys2Proof.Machine
end

