-- ==== Sys2Proof/Machine/Cpu.lean ====
section
/-! DEFINITION. Machine/Cpu.lean: one instruction boundary of the core (40_cpu_integration.md R173, R176, R179): the
forms whose encoding 30_encoding.md R152 gives, ILLEGAL and the two emulator lines (60_exceptions.md R459), and every
other first word through the uninterpreted part of `CPU_CORE`, held to the contract of R459 and R465..R467. -/

namespace Sys2Proof.Machine

/-- What the first word of an instruction selects. -/
inductive CoreForm where
  /-- `move #imm,abs.l`. -/
  | moveImmAbs (w : Width)
  /-- `move abs.l,Dn`. -/
  | moveAbsD (w : Width) (n : BitVec 3)
  /-- `move.b Dn,abs.l`. -/
  | moveDAbs (n : BitVec 3)
  /-- `btst #b,abs.l`. -/
  | btstAbs
  /-- `beq.s d8`. -/
  | beq (d : Byte)
  /-- `bne.s d8`. -/
  | bne (d : Byte)
  /-- `bra.s d8`. -/
  | bra (d : Byte)
  /-- `moveq #imm,Dn`. -/
  | moveq (n : BitVec 3) (v : Byte)
  /-- `addq.l #1,Dn`. -/
  | addq1 (n : BitVec 3)
  | stop
  | rte
  | illegal
  | lineA
  | lineF
  /-- A first word whose encoding the spec does not give. -/
  | other
  deriving DecidableEq, Repr, Inhabited

/-- The forms with one register field in bits 11..9 or 2..0, or a byte in bits 7..0 (R152). A displacement of 0 is
another form of the 68000 (log 9). -/
def coreFieldForm (ir : Half) : CoreForm :=
  let n := ir.extractLsb' 9 3
  let m := ir.extractLsb' 0 3
  let d := ir.extractLsb' 0 8
  if ir &&& 0xF1FF#16 = 0x1039#16 then .moveAbsD .byte n
  else if ir &&& 0xF1FF#16 = 0x3039#16 then .moveAbsD .word n
  else if ir &&& 0xFFF8#16 = 0x13C0#16 then .moveDAbs m
  else if ir &&& 0xFFF8#16 = 0x5280#16 then .addq1 m
  else if ir &&& 0xF100#16 = 0x7000#16 then .moveq n d
  else if ir &&& 0xFF00#16 = 0x6700#16 ∧ d ≠ 0 then .beq d
  else if ir &&& 0xFF00#16 = 0x6600#16 ∧ d ≠ 0 then .bne d
  else if ir &&& 0xFF00#16 = 0x6000#16 ∧ d ≠ 0 then .bra d
  else if ir &&& 0xF000#16 = 0xA000#16 then .lineA
  else if ir &&& 0xF000#16 = 0xF000#16 then .lineF
  else .other

/-- The form of a first word (R152, R459). -/
def coreForm (ir : Half) : CoreForm :=
  if ir = 0x13FC#16 then .moveImmAbs .byte
  else if ir = 0x33FC#16 then .moveImmAbs .word
  else if ir = 0x23FC#16 then .moveImmAbs .long
  else if ir = 0x0839#16 then .btstAbs
  else if ir = 0x4E72#16 then .stop
  else if ir = 0x4E73#16 then .rte
  else if ir = 0x4AFC#16 then .illegal
  else coreFieldForm ir

/-- The words the core may hold for a fetch address from before the last stores (log 36); none for an odd address, which
is never fetched (60_exceptions.md R458), and none in the I/O page, from which the core fetches no word ahead. -/
def aheadAt (a : Addr) (s : State) : List Half :=
  if a.getLsbD 0 || ioBase ≤ a.toNat then [] else (s.cpu.ahead.filter fun e => e.1 = a).map Prod.snd

/-- Hold no word for a fetch address: one is used, or the address is fetched anew (log 36). -/
def dropAhead (a : Addr) (s : State) : State := setAhead (s.cpu.ahead.filter fun e => e.1 ≠ a) s

/-- An instruction fetch (20_memory.md R106): the word memory holds, or, where the core may have prefetched the word
before it was stored to, by a draw one of those it may hold (70_reset_and_hazards.md R503; log 36). The `MemRead` of a
held word fell before the store; the word is not of the I/O page, so that read gave its two bytes and did nothing else.
Either way the address holds no older word after this fetch, so that a later one sees the store. -/
def coreFetch (a : Word) (s : State) : Host.Outcome State Fault Refusal :=
  match aheadAt (busAddr a) s with
  | [] => cpuRead .word a true s
  | old =>
    let s1 := dropAhead (busAddr a) (nextDraw s)
    match old[(drawWord s).toNat % (old.length + 1)]? with
    | some v => .next (answer (v.setWidth 32) s1)
    | none => cpuRead .word a true s1

/-- Fetch the word `off` bytes after the first one. -/
def fetchWord (off : Word) (f : Half → State → Host.Outcome State Fault Refusal) (s : State) :
    Host.Outcome State Fault Refusal :=
  unlessUnwound (coreFetch (s.cpu.ipc + off) s) fun s1 => f (s1.bus.setWidth 16) s1

/-- Fetch two words, high first. -/
def fetchLong (off : Word) (f : Word → State → Host.Outcome State Fault Refusal) (s : State) :
    Host.Outcome State Fault Refusal :=
  fetchWord off (fun h => fetchWord (off + 2#32) fun l => f (h ++ l)) s

/-- An instruction of `n` bytes ends with these registers: the pc moves past it. -/
def advanceWith (n : Word) (r : CoreRegs) (s : State) : Host.Outcome State Fault Refusal :=
  .next (setCore { r with pc := s.cpu.ipc + n } s)

/-- `move #imm,abs.l`: the immediate's words, the address, the write. -/
def coreMoveImmAbs (w : Width) (s : State) : Host.Outcome State Fault Refusal :=
  let store (off : Word) (v : Word) : State → Host.Outcome State Fault Refusal :=
    fetchLong off fun a s1 =>
      unlessUnwound (cpuWrite w a v s1) fun s2 =>
      advanceWith (off + 4#32) { s2.cpu.regs with sr := srMove w v s2.cpu.regs.sr } s2
  match w with
  | .long => fetchLong 2#32 (store 6#32) s
  | .byte | .word => fetchWord 2#32 (fun v => store 4#32 (v.setWidth 32)) s

/-- `move abs.l,Dn`: the other bits of Dn are kept. -/
def coreMoveAbsD (w : Width) (n : BitVec 3) (s : State) : Host.Outcome State Fault Refusal :=
  fetchLong 2#32 (fun a s1 =>
    unlessUnwound (cpuRead w a false s1) fun s2 =>
    advanceWith 6#32 { setD s2.cpu.regs n (mergeReg w (getD s2.cpu.regs n) s2.bus) with
      sr := srMove w s2.bus s2.cpu.regs.sr } s2) s

/-- `move.b Dn,abs.l`. -/
def coreMoveDAbs (n : BitVec 3) (s : State) : Host.Outcome State Fault Refusal :=
  fetchLong 2#32 (fun a s1 =>
    let v := getD s1.cpu.regs n
    unlessUnwound (cpuWrite .byte a v s1) fun s2 =>
    advanceWith 6#32 { s2.cpu.regs with sr := srMove .byte v s2.cpu.regs.sr } s2) s

/-- `btst #b,abs.l`: the bit number modulo 8. -/
def coreBtst (s : State) : Host.Outcome State Fault Refusal :=
  fetchWord 2#32 (fun b => fetchLong 4#32 fun a s1 =>
    unlessUnwound (cpuRead .byte a false s1) fun s2 =>
    advanceWith 8#32 { s2.cpu.regs with
      sr := srBtst (s2.bus.getLsbD (b.toNat % 8)) s2.cpu.regs.sr } s2) s

/-- A short branch: the target is the branch's address + 2 + sext(d8). -/
def coreBranch (taken : Bool) (d : Byte) (s : State) : Host.Outcome State Fault Refusal :=
  .next (setPc (s.cpu.ipc + 2#32 + if taken then sext8 d else 0) s)

/-- `moveq #imm,Dn`. -/
def coreMoveq (n : BitVec 3) (v : Byte) (s : State) : Host.Outcome State Fault Refusal :=
  advanceWith 2#32 { setD s.cpu.regs n (sext8 v) with sr := srMove .long (sext8 v) s.cpu.regs.sr } s

/-- `addq.l #1,Dn`. -/
def coreAddq1 (n : BitVec 3) (s : State) : Host.Outcome State Fault Refusal :=
  let v := getD s.cpu.regs n
  advanceWith 2#32 { setD s.cpu.regs n (v + 1) with sr := srAddq1 v s.cpu.regs.sr } s

/-- Enter or leave the STOP state (60_exceptions.md R467). -/
def setStopped (b : Bool) (s : State) : State := { s with cpu := { s.cpu with stopped := b } }

/-- The word at `a` before an instruction, from its state `s0`, where the instruction has changed it; none in the I/O
page, where a word is fetched by `MemRead` when it is used (log 36). -/
def wordBefore (s0 s : State) (a : Addr) : List (Addr × Half) :=
  if ioBase ≤ a.toNat ∨ peek16 s0 a = peek16 s a then [] else [(a, peek16 s0 a)]

/-- Note the words the core may hold after an instruction that began in `s0` (20_memory.md R106; log 36): at the two
next fetch addresses, those memory held before the instruction's stores, and those held from before and not fetched
since. -/
def noteAhead (s0 s : State) : State :=
  let a := busAddr s.cpu.regs.pc
  setAhead ((s.cpu.ahead.filter fun e => e.1 = a ∨ e.1 = a + 2) ++ wordBefore s0 s a ++ wordBefore s0 s (a + 2)) s

/-- The instruction that began in `s0` completes. With T set when it began, the trace exception follows (R459;
log 20). -/
def endInstruction (s0 : State) (o : Host.Outcome State Fault Refusal) : Host.Outcome State Fault Refusal :=
  unlessUnwound o fun s =>
    if srT s0.cpu.regs.sr then takeException 9 s.cpu.regs.pc (setStopped false s) else .next (noteAhead s0 s)

/-- Run a privileged instruction that began in `s0`, or take the privilege violation with its address (R466). -/
def privileged (s0 : State) (f : State → Host.Outcome State Fault Refusal) (s : State) :
    Host.Outcome State Fault Refusal :=
  if srS s.cpu.regs.sr then endInstruction s0 (f s) else takeException 8 s.cpu.ipc s

/-- `stop #imm` (R467): SR is `imm` whole, bit 13 too, so that a clear one leaves supervisor mode, though R465 does not
list STOP among the instructions that do: the model's reading (log 40). -/
def coreStop (s : State) : Host.Outcome State Fault Refusal :=
  fetchWord 2#32 (fun v s1 =>
    andThen (advanceWith 4#32 { s1.cpu.regs with sr := srValue v } s1) fun s2 => .next (setStopped true s2)) s

/-- The registers of an unprivileged instruction: the system byte of SR and the inactive stack pointer stay (R465,
R466; log 8). -/
def userRegs (cur r : CoreRegs) : CoreRegs :=
  { r with
    sr := (cur.sr &&& 0xFF00#16) ||| (r.sr &&& 0x001F#16)
    usp := if srS cur.sr then cur.usp else r.usp
    ssp := if srS cur.sr then r.ssp else cur.ssp }

/-- The vectors of R459 whose pushed PC is the instruction's own address. -/
def pushesOwnPc (n : Byte) : Bool := n = 4 || n = 8 || n = 10 || n = 11

/-- The vectors of R459 whose pushed PC is the next instruction's address. -/
def pushesNextPc (n : Byte) : Bool := n = 5 || n = 6 || n = 7 || n = 9 || (32 ≤ n.toNat && n.toNat ≤ 47)

/-- The trace exception after an exception taken with T set (R459; log 20). -/
def traceAfter (traced : Bool) (o : Host.Outcome State Fault Refusal) : Host.Outcome State Fault Refusal :=
  unlessUnwound o fun s => if traced then takeException 9 s.cpu.regs.pc s else .next s

/-- An exception of R459 that the core raises; one outside that list has no meaning (R187). With T set a trace exception
follows those of the next instruction's address, but for vector 9, which is the trace exception (log 20). -/
def coreException (n : Byte) (next : Word) (s : State) : Host.Outcome State Fault Refusal :=
  if pushesOwnPc n then takeException n s.cpu.ipc s
  else if pushesNextPc n then traceAfter (srT s.cpu.regs.sr && n != 9) (takeException n next s)
  else .refused .coreError

/-- Give the core the registers it has within an unprivileged instruction (R465, R466; log 8). -/
def commitRegs (r : CoreRegs) (s : State) : State := setCore (userRegs s.cpu.regs r) s

/-- A read by the uninterpreted part of the core: an instruction fetch, or a data access. -/
def coreRead (w : Width) (a : Word) (prog : Bool) (s : State) : Host.Outcome State Fault Refusal :=
  match w with
  | .word => if prog then coreFetch a s else cpuRead .word a prog s
  | .byte | .long => cpuRead w a prog s

/-- One instruction of the uninterpreted part of `CPU_CORE` (00_scope.md R16), begun in `s0`: its accesses one after
another, at most `fuel` of them, then its end. `reads` holds the values read so far, and 0 for each write. The registers
an access or an exception comes with are the core's by then, so that which of them survive an access that a bus or
address error unwinds is `CPU_CORE`'s choice (R454; log 37). -/
def coreRun (s0 : State) : Nat → List Word → State → Host.Outcome State Fault Refusal
  | 0, _, _ => .refused .coreError
  | fuel + 1, reads, s =>
    match Config.coreAct s0.cpu.regs s0.cpu.ir reads with
    | .read r w a prog =>
      unlessUnwound (coreRead w a prog (commitRegs r s)) fun s1 => coreRun s0 fuel (reads ++ [s1.bus]) s1
    | .write r w a v => unlessUnwound (cpuWrite w a v (commitRegs r s)) fun s1 => coreRun s0 fuel (reads ++ [0]) s1
    | .finish r => endInstruction s0 (.next (commitRegs r s))
    | .finishPrivileged r =>
      privileged s0 (fun s1 => .next (setCore { r with sr := srValue r.sr } s1)) s
    | .except r n next => coreException n next (commitRegs r s)
    | .resetOut next => privileged s0 (fun s1 => .next (setPc next s1)) s
    | .noMeaning => .refused .coreError

/-- How many bus accesses one instruction makes at most (the longest MOVEM makes 35). -/
def coreFuel : Nat := 64

/-- Execute the instruction whose first word is in `ir`. The forms of R152 change a register or a flag only after their
last access, which is the model's choice (log 37). -/
def coreExecute (s : State) : Host.Outcome State Fault Refusal :=
  let done := endInstruction s
  let z := s.cpu.regs.sr.getLsbD 2
  match coreForm s.cpu.ir with
  | .moveImmAbs w => done (coreMoveImmAbs w s)
  | .moveAbsD w n => done (coreMoveAbsD w n s)
  | .moveDAbs n => done (coreMoveDAbs n s)
  | .btstAbs => done (coreBtst s)
  | .beq d => done (coreBranch z d s)
  | .bne d => done (coreBranch (!z) d s)
  | .bra d => done (coreBranch true d s)
  | .moveq n v => done (coreMoveq n v s)
  | .addq1 n => done (coreAddq1 n s)
  | .stop => privileged s coreStop s
  | .rte => privileged s returnFromException s
  | .illegal => takeException 4 s.cpu.ipc s
  | .lineA => takeException 10 s.cpu.ipc s
  | .lineF => takeException 11 s.cpu.ipc s
  | .other => coreRun s coreFuel [] s

/-- Begin an instruction: its address, and, until its first word is read, a free value for that word (log 12). -/
def beginInstruction (s : State) : State :=
  let s1 := nextDraw s
  { s1 with cpu := { s1.cpu with ipc := s.cpu.regs.pc, ir := (drawWord s).setWidth 16 } }

/-- Fetch and execute one instruction. An odd pc is an address error (R458). -/
def coreInstruction (s : State) : Host.Outcome State Fault Refusal :=
  fetchWord 0#32 (fun v s1 => coreExecute { s1 with cpu := { s1.cpu with ir := v } }) (beginInstruction s)

/-- ONE BOUNDARY of the core: an accepted interrupt is taken, else an instruction runs, else the core stays stopped
(R173, R179, R467). The mark of an earlier bus error is seen and dropped. -/
def coreStep (s : State) : Host.Outcome State Fault Refusal :=
  let s1 := markBerr false s
  if interruptAccepted s1.cpu then takeInterrupt (setStopped false s1)
  else if s1.cpu.stopped then .next s1
  else coreInstruction s1

end Sys2Proof.Machine
end

