-- ==== Sys2Proof/Machine/Loader.lean ====
section
/-! DEFINITION. Machine/Loader.lean: the floppy image loaders (43_wd1772_dma.md R340..R342). They describe the host's
side, and fix the geometry that the WD1772 reads. -/

namespace Sys2Proof.Machine

/-- The geometries the .ST loader searches, in its order (R340): sides, tracks, sectors a track. -/
def stGeometries : List (Nat × Nat × Nat) :=
  [1, 2].flatMap fun sides => [79, 80, 81, 82].flatMap fun tracks =>
    [8, 9, 10, 11, 12].map fun spt => (sides, tracks, spt)

/-- A .ST image (R340): none where no geometry has its length. -/
def loadSt (file : List Byte) (wp : Bool) : Option Floppy :=
  (stGeometries.find? fun g => file.length == g.1 * g.2.1 * g.2.2 * 512).map fun g =>
    { payload := file, sides := g.1, tracks := g.2.1, spt := g.2.2, bps := 512, writeProtected := wp }

/-- Decode the record bytes of a track, at most `fuel` of them, until `want` bytes are produced (R342). None where
the bytes run out first, or a run goes past `want`. -/
def msaRuns : Nat → Nat → List Byte → Option (List Byte)
  | _, 0, _ => some []
  | 0, _ + 1, _ => none
  | _ + 1, _ + 1, [] => none
  | fuel + 1, want + 1, b :: t =>
    if b = 0xE5 then
      match t with
      | v :: h :: l :: t' =>
        let count := (be16 h l).toNat
        if want + 1 < count then none
        else (msaRuns fuel (want + 1 - count) t').map fun r => List.replicate count v ++ r
      | _ => none
    else (msaRuns fuel want t).map fun r => b :: r

/-- One track record (R342): its bytes decoded, and the rest of the file. A record whose size word reaches past the end
of the file is rejected, even where the bytes that are there complete the track: the rule does not say (log 39). -/
def msaRecord (want : Nat) (file : List Byte) : Option (List Byte × List Byte) :=
  match file with
  | h :: l :: t =>
    let size := (be16 h l).toNat
    if t.length < size then none
    else if size = want then some (t.take size, t.drop size)
    else (msaRuns size want (t.take size)).map fun r => (r, t.drop size)
  | _ => none

/-- `n` track records in file order (R342): tracks outside, sides inside. -/
def msaRecords (want : Nat) : Nat → List Byte → Option (List Byte)
  | 0, _ => some []
  | n + 1, file =>
    match msaRecord want file with
    | none => none
    | some (r, rest) => (msaRecords want n rest).map fun q => r ++ q

/-- The number of sides a header's sides word stands for (R341). -/
def msaSides (c : Config.MsaSides) (w : Half) : Nat :=
  match c with
  | .minusOne => w.toNat + 1
  | .count => w.toNat

/-- A .MSA image (R341, R342): the header's five words, then the track records. An end track before the start track is
not rejected by the rule; its `end - start + 1` below 1 is taken as no track at all, with an empty payload (log 39). A
file shorter than the header is rejected, whatever its first word is, which the rule does not say (log 39). -/
def loadMsa (c : Config.MsaSides) (file : List Byte) (wp : Bool) : Option Floppy :=
  match file with
  | m0 :: m1 :: p0 :: p1 :: s0 :: s1 :: b0 :: b1 :: e0 :: e1 :: rest =>
    if be16 m0 m1 = 0x0E0F then
      let spt := (be16 p0 p1).toNat
      let sides := msaSides c (be16 s0 s1)
      let tracks := (be16 e0 e1).toNat + 1 - (be16 b0 b1).toNat
      (msaRecords (spt * 512) (tracks * sides) rest).map fun payload =>
        { payload := payload, sides := sides, tracks := tracks, spt := spt, bps := 512, writeProtected := wp }
    else none
  | _ => none

end Sys2Proof.Machine
end

