-- ==== Sys2Proof/Machine/HostAgent.lean ====
section
/-! DEFINITION. Machine/HostAgent.lean: the host agent's steps (46_frame_loop.md R439, R440; 43_wd1772_dma.md R343). -/

namespace Sys2Proof.Machine

/-- Insert a loaded image; a rejected one leaves the slot unchanged (R343). -/
def insertDisk (d : Option Floppy) (s : State) : State :=
  match d with
  | some f => { s with disk := some f }
  | none => s

/-- Eject (R343). -/
def ejectDisk (s : State) : State := { s with disk := none }

/-- A host reset or shutdown (R440): the loop stops after its frame. -/
def requestStop (r : LoopRequest) (s : State) : State :=
  { s with loop := { s.loop with running := false, request := some r } }

/-- One host step (R439). -/
def deliver (h : Config.HostStep) (s : State) : State :=
  match h with
  | .mouseMove hx hy => hostMouseMove hx hy s
  | .mouseButton left right => hostMouseButton left right s
  | .joystick input pressed => hostJoystick input pressed s
  | .key scancode down => hostKey scancode down s
  | .insertSt file wp => insertDisk (loadSt file wp) s
  | .insertMsa file wp => insertDisk (loadMsa s.params.msaSides file wp) s
  | .eject => ejectDisk s
  | .reset => requestStop .reset s
  | .shutdown => requestStop .shutdown s

/-- Deliver a list of host steps in order. -/
def deliverAll : List Config.HostStep → State → State
  | [], s => s
  | h :: t, s => deliverAll t (deliver h s)

/-- The host agent's turn (20_memory.md R103): its next step, if it has one. -/
def hostTurn (s : State) : State :=
  match s.host.inbox with
  | [] => s
  | h :: t => deliver h { s with host := { s.host with inbox := t } }

/-- What comes from outside when no turn is listed (R439; 20_memory.md R103): any turns, closed by one of the emulator's,
and any host steps behind those still queued, as free values (log 14). -/
def hostArrives (s : State) : State :=
  { nextDraw s with
    host := { s.host with
      turns := Config.hostTurns s.draws ++ [.emulator]
      inbox := s.host.inbox ++ Config.hostSteps s.draws } }

/-- The pump of a finished frame (R437): every queued step is delivered. -/
def pumpHost (s : State) : State :=
  deliverAll s.host.inbox { s with host := { s.host with inbox := [] } }

end Sys2Proof.Machine
end

