-- ==== Sys2Proof/Machine/Video.lean ====
section
/-! DEFINITION. Machine/Video.lean: the video shifter (45_video_shifter.md R410..R416) and the video counter's latch
and write-back (46_frame_loop.md R434, R435). -/

namespace Sys2Proof.Machine

/-- `expand8(c3)` (R413). -/
def expand8 (c : BitVec 3) : Byte := (c.setWidth 8 <<< 5) ||| (c.setWidth 8 <<< 2) ||| (c.setWidth 8 >>> 1)

/-- An opaque ARGB word of three components (R412). -/
def argb (r g b : BitVec 3) : Word := ((0xFF#8 ++ expand8 r) ++ expand8 g) ++ expand8 b

/-- The colour of a palette word under the layout (R412). -/
def paletteColour (l : Config.PaletteLayout) (w : Half) : Word :=
  match l with
  | .nibble => argb (w.extractLsb' 8 3) (w.extractLsb' 4 3) (w.extractLsb' 0 3)
  | .packed => argb (w.extractLsb' 6 3) (w.extractLsb' 3 3) (w.extractLsb' 0 3)

/-- `palette()` (R412): the 16 colours. -/
def videoPalette (s : State) : List Word :=
  (List.range 16).map fun i =>
    paletteColour s.params.paletteLayout (be16 (ioByte s (0x0240 + 2 * i)) (ioByte s (0x0241 + 2 * i)))

/-- The plane words of a group (R414). -/
def planeWords (s : State) (vc : Addr) (planes g : Nat) : List Half :=
  (List.range planes).map fun j => peek16 s (vc + BitVec.ofNat 24 (2 * (g * planes + j)))

/-- The colour index of bit `b` (R414): plane 0 is the least significant bit. -/
def pixelIndex (b : Nat) : List Half → Nat
  | [] => 0
  | w :: t => (w.getLsbD b).toNat + 2 * pixelIndex b t

/-- The pixels of a group, left to right, each once or twice (R414). -/
def groupPixels (pal : List Word) (double : Bool) (ws : List Half) : List Word :=
  (List.range 16).flatMap fun k =>
    let p := pal.getD (pixelIndex (15 - k) ws) 0
    if double then [p, p] else [p]

/-- The 640 words of a line (R414). -/
def decodeLine (s : State) (vc : Addr) (planes groups : Nat) (double : Bool) : List Word :=
  (List.range groups).flatMap fun g => groupPixels (videoPalette s) double (planeWords s vc planes g)

/-- Store a row of the framebuffer. -/
def setRow (row : Nat) (ws : List Word) (s : State) : State :=
  { s with video := { s.video with fb := s.video.fb.set row ws } }

/-- `blit_line(fb, vc, row)` (R410): resolutions 2 and 3 fault (R411). -/
def blitLine (vc : Addr) (row : Nat) (s : State) : Host.Outcome State Fault Refusal :=
  match ((ioByte s 0x0260).extractLsb' 0 2).toNat with
  | 0 => .next (setRow row (decodeLine s vc 4 20 true) s)
  | 1 => .next (setRow row (decodeLine s vc 2 40 false) s)
  | _ => .fault .videoHighRes

/-- Set the video counter. -/
def setVideoCounter (vc : Addr) (s : State) : State := { s with video := { s.video with counter := vc } }

/-- `latch()` (46_frame_loop.md R434). -/
def videoLatch (s : State) : State := setVideoCounter ((ioByte s 0x0201 ++ ioByte s 0x0203) ++ 0#8) s

/-- `write_back(video_counter)` (46_frame_loop.md R435). -/
def videoWriteBack (s : State) : State :=
  storeByte (ioBase + 0x0209) (s.video.counter.extractLsb' 0 8)
    (storeByte (ioBase + 0x0207) (s.video.counter.extractLsb' 8 8)
      (storeByte (ioBase + 0x0205) (s.video.counter.extractLsb' 16 8) s))

/-- The advance of the counter after a visible line (46_frame_loop.md R431, action 12). -/
def videoAdvance (s : State) : State := setVideoCounter (s.video.counter + 160#24) s

end Sys2Proof.Machine
end

