-- ==== Sys2Proof/Machine/Frame.lean ====
section
/-! DEFINITION. Machine/Frame.lean: the emulator agent: the frame loop's actions in the order of 46_frame_loop.md
R431, the CPU batches (40_cpu_integration.md R173, R186) and the warm reset (70_reset_and_hazards.md R491). -/

namespace Sys2Proof.Machine

/-- Go to an action of the frame loop. -/
def gotoAct (a : Act) (s : State) : State := { s with loop := { s.loop with act := a } }

/-- The overshoot credited to the running batch: `OVERSHOOT_CARRY` (R173, R186). -/
def batchCarry (s : State) : Nat := if s.params.overshootCarry then s.loop.excess else 0

/-- The cost of the next instruction: a free value of at least 1 cycle (log 10). -/
def instructionCost (s : State) : Nat := Config.coreCycles s.draws + 1

/-- Count cycles in the batch and in `cpu.clock` (R37, R173). -/
def spend (n : Nat) (s : State) : State :=
  { s with
    cpu := { s.cpu with clock := s.cpu.clock + n }
    loop := { s.loop with used := s.loop.used + n } }

/-- The batch of `n` cycles returns: its overshoot is kept, and the next action is due. Where a carried excess has
reached the whole budget, the batch runs nothing and what is left over is carried on, the model's choice (log 38). -/
def endBatch (n : Nat) (next : Act) (s : State) : State :=
  { s with loop := { s.loop with act := next, excess := s.loop.used + batchCarry s - n, used := 0 } }

/-- Return from the batch at the first boundary where its sum has reached `n` (R173). -/
def batchBoundary (n : Nat) (next : Act) (s : State) : State :=
  if n ≤ s.loop.used + batchCarry s then endBatch n next s else s

/-- Is the core stopped, with no interrupt accepted (60_exceptions.md R467)? -/
def coreIdle (s : State) : Bool := s.cpu.stopped && !interruptAccepted s.cpu

/-- One boundary of `execute_for(n)` (R173): an instruction or an interrupt entry, or, while the core is stopped, the
cycles up to the batch's end. A batch whose carry has reached its budget runs no instruction (log 38). -/
def batchStep (n : Nat) (next : Act) (s : State) : Host.Outcome State Fault Refusal :=
  if n ≤ s.loop.used + batchCarry s then .next (endBatch n next s)
  else if coreIdle s then .next (endBatch n next (spend (n - (s.loop.used + batchCarry s)) s))
  else andThen (coreStep (nextDraw s)) fun s1 => .next (batchBoundary n next (spend (instructionCost s) s1))

/-- Is a line visible (00_scope.md R9)? -/
def isVisible (line : Nat) : Bool := 63 ≤ line && line < 263

/-- The end of a line: the next one, or the end of the frame (R430, R431). -/
def endLine (s : State) : State :=
  if s.loop.scanline + 1 < Config.linesPerFrame then
    { s with loop := { s.loop with act := .cpuMain, scanline := s.loop.scanline + 1 } }
  else gotoAct .vbl s

/-- The start of a frame: its first action (R431, R434). -/
def startFrame (s : State) : State :=
  let s1 := videoLatch s
  { s1 with loop := { s1.loop with act := .cpuMain, scanline := 0 } }

/-- The event-count ticks of a visible line (R432). -/
def eventTicks (s : State) : State := tickEvent .b (tickEvent .a s)

/-- Raise `frame_complete` (R437). -/
def raiseFrameComplete (s : State) : State :=
  { s with video := { s.video with frameComplete := s.video.frameComplete + 1 } }

/-- `rom[i..i+3]` as a long. -/
def romLong (s : State) (i : Nat) : Word :=
  be32 (romByte s i) (romByte s (i + 1)) (romByte s (i + 2)) (romByte s (i + 3))

/-- The reset of the CPU (40_cpu_integration.md R171). -/
def cpuReset (s : State) : State := { s with cpu := resetCpu (romLong s 0) (romLong s 4) }

/-- The device resets of 10_state.md R69..R74. The count of frames shown is the model's own and stays. -/
def deviceReset (s : State) : State :=
  { s with
    arb := resetArb
    mfp := resetMfp
    ym := resetYm
    wd := resetWd
    acia := resetAcia
    ikbd := resetIkbd
    video := { resetVideo with frameComplete := s.video.frameComplete }
    loop := resetLoop }

/-- The warm reset (70_reset_and_hazards.md R491): memory, the disk and the marks are kept. -/
def warmReset (s : State) : State := cpuReset (deviceReset s)

/-- What stands before each frame (R440): with `running` set its first action, else the warm reset, after which the
loop starts over at that action, or the end of the run. The test and what follows it are one step (log 18). -/
def beforeFrame (s : State) : State :=
  if s.loop.running then startFrame s
  else match s.loop.request with
    | some .reset => warmReset s
    | some .shutdown | none => gotoAct .ended s

/-- ONE STEP OF THE EMULATOR AGENT (R431; 20_memory.md R103): one action of the frame loop, or one boundary of a CPU
batch. -/
def emulatorStep (s : State) : Host.Outcome State Fault Refusal :=
  match s.loop.act with
  | .latch => .next (beforeFrame s)
  | .cpuMain => batchStep 448 .ymMain s
  | .ymMain => .next (gotoAct .mfpMain (ymSync 448 s))
  | .mfpMain => .next (gotoAct .cpuTail (updateTimers 448 s))
  | .cpuTail => batchStep 64 .ymTail s
  | .ymTail => .next (gotoAct .mfpTail (ymSync 64 s))
  | .mfpTail => .next (gotoAct .hbl (updateTimers 64 s))
  | .hbl => .next (gotoAct .acia (raiseHbl s))
  | .acia =>
    let s1 := aciaSync 512 s
    .next (if isVisible s.loop.scanline then gotoAct .writeBack s1 else endLine s1)
  | .writeBack => .next (gotoAct .render (videoWriteBack s))
  | .render =>
    andThen (blitLine s.video.counter (s.loop.scanline - 63) s) fun s1 => .next (gotoAct .advance s1)
  | .advance => .next (gotoAct .eventTicks (videoAdvance s))
  | .eventTicks => .next (endLine (eventTicks s))
  | .vbl => .next (gotoAct .complete (raiseVbl s))
  | .complete => .next (gotoAct .pace (raiseFrameComplete (pumpHost s)))
  | .pace => .next (gotoAct .latch s)
  | .ended => .next s

/-- The configurations the block can start with (70_reset_and_hazards.md R495), as far as Params can hold others, with an
`IKBD_CMD_LEN` within its domain (92_eei_decisions.md, Open parameters). -/
def validParams (p : Config.Params) : Bool :=
  0 < p.hostRate && p.hostRate ≤ 16384000000 && 0 < p.mouseSensX && 0 < p.mouseSensY && ikbdLensOk p

/-- Has a shutdown ended the run (R440)? This is the final state of the model (00_scope.md R29). -/
def hasEnded (s : State) : Bool := s.loop.act == .ended

/-- The state whose next turn is listed: where none is, the turns and host steps from outside arrive (log 14). -/
def withTurns (s : State) : State := if s.host.turns.isEmpty then hostArrives s else s

/-- The next turn (20_memory.md R101, R103): the first one listed. -/
def takeTurn (s : State) : Host.Outcome State Fault Refusal :=
  let s0 := withTurns s
  match s0.host.turns with
  | [] => emulatorStep s0
  | t :: ts =>
    let s1 := { s0 with host := { s0.host with turns := ts } }
    match t with
    | .emulator => emulatorStep s1
    | .host => .next (hostTurn s1)
    | .audio n => .next (audioPull n s1)

end Sys2Proof.Machine
end

