-- ==== Sys2Proof/Machine/Step.lean ====
section
/-! DEFINITION. Machine/Step.lean: one step of the machine, and how the host's table words reach it (log 1, log 2). -/

namespace Sys2Proof.Machine

/-- Run the first operation the core presents in `ops` (log 1). -/
def runOps (s : State) : Host.Outcome State Fault Refusal :=
  match decode s.ops with
  | .ok (i, rest) => exec i { s with ops := rest }
  | .error e => .refused (.undecoded e)

/-- ONE STEP. A state with a fault or a refusal never goes on (10_state.md R65; 60_exceptions.md R468); a block with
parameters it cannot start with does not run (70_reset_and_hazards.md R495). A run that a shutdown has ended stays as it
is, whatever an agent or the core would still do (46_frame_loop.md R440; log 18). An operation the core presents is run;
otherwise the agents take their turns (20_memory.md R103). -/
def step (s : State) : Host.Outcome State Fault Refusal :=
  match s.faults with
  | f :: _ => .fault f
  | [] =>
    if s.refused then .refused .markedRefused
    else if !validParams s.params then .refused .configError
    else if hasEnded s then .next s
    else if s.ops.isEmpty then takeTurn s
    else runOps s

/-- The state with the operation of a table word presented next: exactly the bytes the decoder reads of it. -/
def State.withFetchWord (s : State) (nbits w : Nat) : State :=
  let bytes := tableBytes nbits w
  match decode bytes with
  | .ok (_, rest) => { s with ops := bytes.take (bytes.length - rest.length) }
  | .error _ => { s with ops := bytes }

end Sys2Proof.Machine
end

