-- ==== Sys2Proof/Machine/Boot.lean ====
section
/-! DEFINITION. Machine/Boot.lean: the configuration (70_reset_and_hazards.md R494), its errors (R495) and the
power-on sequence (R490). Files and the text of a JSON document are read outside the block: a file is its bytes, or
none where it is missing or unreadable, and a document is its options, or none where it is malformed. -/

namespace Sys2Proof.Machine

/-- A floppy image file: .MSA or .ST, its bytes, and whether the host protects it (R343, R490). -/
structure FloppyFile where
  msa : Bool
  file : List Byte
  writeProtected : Bool
  deriving DecidableEq, Repr, Inhabited

/-- The JSON options of R494, each absent or present. A path stands for the file it names. -/
structure JsonConfig where
  tos : Option (Option (List Byte))
  stModel : Option Int
  ramConfiguration : Option Int
  maxSpeed : Option Bool
  floppy : Option (Option FloppyFile)
  mouseX : Option Int
  mouseY : Option Int
  sampleRate : Option Int
  debugMode : Option Bool
  deriving DecidableEq, Repr, Inhabited

/-- The CLI flags of R494. -/
inductive CliFlag where
  | tos (file : Option (List Byte))
  | altconfig (json : Option JsonConfig)
  | debug
  | maxspeed (b : Bool)
  | floppy (file : Option FloppyFile)
  | mouseSensitivity (x y : Int)
  | help
  deriving DecidableEq, Repr, Inhabited

/-- The last flag that gives a value wins (R494). -/
def lastFlag {α : Type} (f : CliFlag → Option α) : List CliFlag → Option α
  | [] => none
  | c :: t =>
    match lastFlag f t with
    | some x => some x
    | none => f c

/-- The configuration after the CLI and the JSON are combined: the CLI wins (R494, D75). -/
structure BootConfig where
  tos : Option (List Byte)
  stModel : Int
  ramConfiguration : Int
  maxSpeed : Bool
  floppy : Option (Option FloppyFile)
  mouseX : Int
  mouseY : Int
  sampleRate : Int
  deriving DecidableEq, Repr, Inhabited

/-- The JSON document in force: the last `--altconfig`, else the default document (R494). -/
def jsonInForce (default : Option JsonConfig) (cli : List CliFlag) : Option JsonConfig :=
  match lastFlag (fun c => match c with | .altconfig j => some j | _ => none) cli with
  | some j => j
  | none => default

/-- `RAMConfiguration` (R494; 00_scope.md R10). -/
def ramOfConfiguration (n : Int) : Option Config.RamSize :=
  if n = 0 then some .k512 else if n = 1 then some .m1
  else if n = 2 then some .m2 else if n = 3 then some .m4 else none

/-- The option number of a RAM size. -/
def configurationOfRam : Config.RamSize → Int
  | .k512 => 0
  | .m1 => 1
  | .m2 => 2
  | .m4 => 3

/-- Combine the flags, the document and the defaults `p` (R494, D75). Without an `STModel` option the model is 0, the ST,
for which the spec states no default (log 34). -/
def combineConfig (p : Config.Params) (j : JsonConfig) (cli : List CliFlag) : BootConfig :=
  let sens := lastFlag (fun c => match c with | .mouseSensitivity x y => some (x, y) | _ => none) cli
  { tos := ((lastFlag (fun c => match c with | .tos f => some f | _ => none) cli).or j.tos).getD none
    stModel := j.stModel.getD 0
    ramConfiguration := j.ramConfiguration.getD (configurationOfRam p.ramSize)
    maxSpeed := ((lastFlag (fun c => match c with | .maxspeed b => some b | _ => none) cli).or j.maxSpeed).getD
      p.maxSpeed
    floppy := (lastFlag (fun c => match c with | .floppy f => some f | _ => none) cli).or j.floppy
    mouseX := ((sens.map Prod.fst).or j.mouseX).getD p.mouseSensX
    mouseY := ((sens.map Prod.snd).or j.mouseY).getD p.mouseSensY
    sampleRate := j.sampleRate.getD p.hostRate }

/-- `TOS_SIZE` of an image (00_scope.md R11): none for any other length. -/
def tosSizeOf (image : List Byte) : Option Config.TosSize :=
  if image.length = 0x30000 then some .k192 else if image.length = 0x40000 then some .k256 else none

/-- The parameters of a configuration, or none where it is an error of R495. The open choices come from `p`. -/
def bootParams (p : Config.Params) (c : BootConfig) (image : List Byte) : Option Config.Params :=
  match ramOfConfiguration c.ramConfiguration, tosSizeOf image with
  | some ram, some size =>
    if c.stModel = 0 ∧ 0 < c.mouseX ∧ 0 < c.mouseY ∧ 0 < c.sampleRate ∧ c.sampleRate ≤ 16384000000 then
      some { p with
        ramSize := ram, tosSize := size, hostRate := c.sampleRate.toNat,
        mouseSensX := c.mouseX.toNat, mouseSensY := c.mouseY.toNat, maxSpeed := c.maxSpeed }
    else none
  | _, _ => none

/-- Load a floppy file (43_wd1772_dma.md R340..R342). -/
def loadFloppy (c : Config.MsaSides) (f : FloppyFile) : Option Floppy :=
  if f.msa then loadMsa c f.file f.writeProtected else loadSt f.file f.writeProtected

/-- The disk at power-on (R490): none where a configured file is unreadable or rejected, an error of R495. -/
def bootDisk (c : Config.MsaSides) (f : Option (Option FloppyFile)) : Option (Option Floppy) :=
  match f with
  | none => some none
  | some none => none
  | some (some x) => (loadFloppy c x).map some

/-- The ROM's bytes as memory entries, from key `base` (10_state.md R67). -/
def romCells : Nat → List Byte → Memory
  | _, [] => []
  | k, b :: t => (k, b) :: romCells (k + 1) t

/-- The state of R490 once its configuration is read. The open choices, the host's turns and inbox, and which draws
come next, are those of `State.reset`. -/
def powerOnState (p : Config.Params) (image : List Byte) (disk : Option Floppy) : State :=
  cpuReset { State.reset with params := p, mem := romCells (tosBase p) image, disk := disk }

/-- POWER-ON (R490), with the open choices `p`, which are `defaultParams` for the spec's defaults: none where `--help`
keeps the block from starting (R494); `refuse ConfigError` for an error of R495. -/
def powerOn (p : Config.Params) (default : Option JsonConfig) (cli : List CliFlag) :
    Option (Host.Outcome State Fault Refusal) :=
  if .help ∈ cli then none
  else some <|
    match jsonInForce default cli with
    | none => .refused .configError
    | some j =>
      let c := combineConfig p j cli
      match c.tos with
      | none => .refused .configError
      | some image =>
        match bootParams p c image, bootDisk p.msaSides c.floppy with
        | some q, some disk => .next (powerOnState q image disk)
        | _, _ => .refused .configError

end Sys2Proof.Machine
end

