-- ==== Sys2Proof/Safety.lean ====
section
/-! DEFINITION. Safety.lean: what the statements call a state that runs, and the invariants of the machine, one for
each unit: each is a fact that every step keeps and that the reset state has. -/

namespace Sys2Proof

open Machine

/-- The state can take a step: no mark of 10_state.md R65 is set, and its parameters are ones the block can start
with (70_reset_and_hazards.md R495). -/
def Unmarked (s : State) : Prop := s.faults = [] ∧ s.refused = false ∧ validParams s.params = true

/-- The machine runs: its state can take a step, and no shutdown has ended the run (46_frame_loop.md R440). -/
def Running (s : State) : Prop := Unmarked s ∧ s.loop.act ≠ .ended

/-- Memory keeps its canonical form (log 4). -/
def MemOk (s : State) : Prop := memWf s.mem = true

/-- The interrupt lines agree: `arb.MFP` is the MFP's request (41_mfp68901.md R226) and the IPL is that of the
arbiter's flags (40_cpu_integration.md R181). -/
def IrqOk (s : State) : Prop := s.arb.mfp = mfpRequest s.mfp ∧ s.cpu.ipl = iplOf s.arb

/-- The bits of SR that read 0 are 0 (10_state.md R34). -/
def SrOk (s : State) : Prop := s.cpu.regs.sr &&& 0x58E0#16 = 0#16

/-- A counter of the MFP stays in 1..256 (10_state.md R46; 41_mfp68901.md R218). -/
def CounterOk (c : Counter) : Prop := 1 ≤ c.cnt ∧ c.cnt ≤ 256

/-- The MFP's counters and accumulator are in their ranges (10_state.md R46, R47). -/
def MfpOk (s : State) : Prop :=
  CounterOk s.mfp.timerA ∧ CounterOk s.mfp.timerB ∧ CounterOk s.mfp.timerC ∧ CounterOk s.mfp.timerD
    ∧ s.mfp.acc < Config.cpuHz

/-- The YM2149's generators are in their ranges (10_state.md R50), and the ring never exceeds its cap
(42_ym2149.md R267). -/
def YmOk (s : State) : Prop :=
  s.ym.rng ≠ 0 ∧ s.ym.envPos < 96 ∧ s.ym.cyc < 32 ∧ s.ym.ring.length ≤ s.params.hostRate / 4

/-- No WD1772 command is ever in progress (43_wd1772_dma.md R310, R332): BUSY is clear, but for a status a track
command drew, and no multiple transfer is running. -/
def WdOk (s : State) : Prop :=
  s.wd.multi = false ∧ (s.params.trackCmds = .refuse → bit s.wd.status 0 = false)

/-- The ACIA's status follows its latch: TDRE always, RDRF and IRQ with a byte latched (44_acia_ikbd.md R366). -/
def AciaOk (s : State) : Prop := s.acia.status = if s.acia.hasLatched then 0x83#8 else 0x02#8

/-- The framebuffer is 200 rows of 640 words (10_state.md R63), and the line is one of the frame's (R64). -/
def VideoOk (s : State) : Prop :=
  s.video.fb.length = 200 ∧ (∀ r ∈ s.video.fb, r.length = 640) ∧ s.loop.scanline < Config.linesPerFrame

/-- The parameters are the same, and so is the ROM (20_memory.md R92). -/
def SameRom (s t : State) : Prop := t.params = s.params ∧ ∀ i, i < tosBytes s.params → romByte t i = romByte s i

/-- Every byte of the three memories but those `out` picks is the same: ram[i] is key i, rom[i] key TOS_BASE + i, io[i]
key 0xFF8000 + i (log 4). -/
def SameBytesBut (out : Nat → Prop) (s t : State) : Prop := ∀ k : Nat, ¬ out k → storedByte t k = storedByte s k

/-- Every byte of the three memories is the same, and so is every byte the bus shows (20_memory.md R97). -/
def SameBytes (s t : State) : Prop :=
  SameBytesBut (fun _ => False) s t ∧ ∀ a : Addr, peekByte t a = peekByte s a

/-- The RAM bytes a DMA transfer of `n` bytes from `a` reaches (43_wd1772_dma.md R309). -/
def dmaWindow (a : Addr) (n : Nat) (k : Nat) : Prop := ∃ j, j < n ∧ k = (a + BitVec.ofNat 24 j).toNat

/-- The state after a change of the MFP to `m` and `UpdateIRQ()` (41_mfp68901.md R226; 40_cpu_integration.md R181):
`arb.MFP` is the request of `m`, the IPL follows the arbiter, and nothing else moves. -/
def withIrq (m : Mfp) (s : State) : State :=
  { s with
    mfp := m
    arb := { s.arb with mfp := mfpRequest m }
    cpu := { s.cpu with ipl := iplOf { s.arb with mfp := mfpRequest m } } }

/-- The bit of channel `n` in a bank pair (41_mfp68901.md R200). -/
def channelBit (a b : Byte) (n : Nat) : Bool := if 8 ≤ n then bit a (n - 8) else bit b n

/-- Channel `n` is active (41_mfp68901.md R224). -/
def channelActive (m : Mfp) (n : Nat) : Bool :=
  channelBit m.ipra m.iprb n && channelBit m.iera m.ierb n && channelBit m.imra m.imrb n
    && (!bit m.vr 3 || !channelBit m.isra m.isrb n)

/-- The MFP after the FDC line went to `level` (41_mfp68901.md R222): GPIP5 has the level, and the edge AER selects
raises channel 7, which a disabled channel loses under the gating (R220). -/
def fdcLine (p : Config.Params) (level : Bool) (m : Mfp) : Mfp :=
  { m with
    gpip := if level then m.gpip ||| 0x20#8 else m.gpip &&& 0xDF#8
    iprb := if (level == bit m.aer 5 && level != bit m.gpip 5) && (!p.mfpIprGatedByIer || bit m.ierb 7)
            then m.iprb ||| 0x80#8 else m.iprb }

/-- The MFP after the ACIA line went to `level` (41_mfp68901.md R222): GPIP4 and channel 6. -/
def aciaLine (p : Config.Params) (level : Bool) (m : Mfp) : Mfp :=
  { m with
    gpip := if level then m.gpip ||| 0x10#8 else m.gpip &&& 0xEF#8
    iprb := if (level == bit m.aer 4 && level != bit m.gpip 4) && (!p.mfpIprGatedByIer || bit m.ierb 6)
            then m.iprb ||| 0x40#8 else m.iprb }

/-- The MFP after a completed WD1772 command (43_wd1772_dma.md R310, R328, R329): the line is released, then pulled
low. -/
def fdcPulse (p : Config.Params) (m : Mfp) : Mfp := fdcLine p false (fdcLine p true m)

/-- Every byte of an access is plain storage in the I/O mirror (20_memory.md R89). -/
def allPlain (w : Width) (a : Addr) : Bool :=
  (accessAddrs w a).all fun b => decide (0xFF8000 ≤ b.toNat) && (ioReg b).isNone && (berrUnit b).isNone

/-- `n` bytes from `b` lie in RAM, where a stack frame of the core is plain storage (20_memory.md R82). -/
def inRam (p : Config.Params) (b : Addr) (n : Nat) : Prop := 8 ≤ b.toNat ∧ b.toNat + n ≤ ramBytes p

/-- The big-endian word stored at a key (20_memory.md R83). -/
def wordAt (s : State) (k : Nat) : Half := storedByte s k ++ storedByte s (k + 1)

/-- The big-endian long stored at a key (20_memory.md R83). -/
def longAt (s : State) (k : Nat) : Word := wordAt s k ++ wordAt s (k + 2)

/-- The big-endian long the bus shows at an address (20_memory.md R97): the ROM's bytes in 0..7. -/
def peekLong (s : State) (a : Addr) : Word :=
  (peekByte s a ++ peekByte s (a + 1)) ++ (peekByte s (a + 2) ++ peekByte s (a + 3))

/-- SR on entering an exception: S set and T cleared, the rest kept (60_exceptions.md R454, R459). -/
def supervisorSr (sr : Half) : Half := (sr ||| 0x2000#16) &&& 0x7FFF#16

/-- The sector number after `i` sectors of a multiple command (43_wd1772_dma.md R318). -/
def sectorAfter (spt : Nat) (sector : Byte) : Nat → Byte
  | 0 => sector
  | i + 1 => BitVec.ofNat 8 ((sectorAfter spt sector i).toNat % spt + 1)

/-- Write a list of bytes to the ACIA data register, one after another (44_acia_ikbd.md R363). -/
def writeAcia : List Byte → State → Host.Outcome State Fault Refusal
  | [], s => .next s
  | b :: t, s => andThen (exec (.aciaDataWr8 b) s) (writeAcia t)

/-- The access that reads a width. -/
def readAccess : Width → Access
  | .byte => .rd8
  | .word => .rd16
  | .long => .rd32

/-- The access that writes the low bits of a value. -/
def writeAccess : Width → Word → Access
  | .byte, v => .wr8 (v.setWidth 8)
  | .word, v => .wr16 (v.setWidth 16)
  | .long, v => .wr32 v

/-- The big-endian value of a width stored at a key (20_memory.md R83). -/
def storedValue : Width → State → Nat → Word
  | .byte, s, k => (storedByte s k).setWidth 32
  | .word, s, k => (wordAt s k).setWidth 32
  | .long, s, k => longAt s k

/-- The plain-storage rows of the table, each with the address it acts on (30_encoding.md R132): MMU_CONFIG,
VIDEO_BASE_HI, VIDEO_BASE_MID, VIDEO_COUNTER_HI, VIDEO_COUNTER_MID, VIDEO_COUNTER_LO, SYNC_MODE, PALETTE, RESOLUTION and
UNCLAIMED_IO. -/
def plainRows (off : BitVec 5) (a : Addr) (acc : Access) : List (Instr × Addr) :=
  [(.mmuConfig acc, 0xFF8001#24), (.videoBaseHi acc, 0xFF8201#24), (.videoBaseMid acc, 0xFF8203#24),
   (.videoCounterHi acc, 0xFF8205#24), (.videoCounterMid acc, 0xFF8207#24), (.videoCounterLo acc, 0xFF8209#24),
   (.syncMode acc, 0xFF820A#24), (.palette off acc, 0xFF8240#24 + off.setWidth 24), (.resolution acc, 0xFF8260#24),
   (.unclaimedIo a acc, a)]

/-- The bus-error rows of the table: BERR_STE_DMA_SOUND, BERR_BLITTER and BERR_STE_JOYSTICK. -/
def berrRows (a : Addr) (acc : Access) : List Instr :=
  [.berrSteDmaSound a acc, .berrBlitter a acc, .berrSteJoystick a acc]

/-- The state after the YM register `n` was written with `v` (42_ym2149.md R252, R254, R255): register 13 restarts the
envelope, register 14 selects the drive and the side, and nothing else moves. -/
def ymWritten (n : BitVec 4) (v : Byte) (s : State) : State :=
  { s with
    ym := { s.ym with
      reg := s.ym.reg.set n.toNat v n.isLt
      envPos := if n = 13 then 0 else s.ym.envPos
      envCnt := if n = 13 then 0 else s.ym.envCnt }
    wd := if n = 14 then { s.wd with
            drive := if v.getLsbD 1 = false then .driveA else if v.getLsbD 2 = false then .driveB else .noDrive
            side := if s.params.ymSideInvert then 1#1 - v.extractLsb' 0 1 else v.extractLsb' 0 1 }
          else s.wd }

/-- The MFP after `raise(n)` (41_mfp68901.md R220): the pending bit of channel `n` is set, but that under the gating a
disabled channel's request is lost. -/
def raised (p : Config.Params) (n : Nat) (m : Mfp) : Mfp :=
  if p.mfpIprGatedByIer && !channelBit m.iera m.ierb n then m
  else if 8 ≤ n then { m with ipra := m.ipra ||| (1#8 <<< (n - 8)) } else { m with iprb := m.iprb ||| (1#8 <<< n) }

/-- The WRITE PROTECT and INDEX bits of a type I status (43_wd1772_dma.md R316): they need a disk in drive A. -/
def diskBits (w : Wd) (disk : Option Floppy) : Byte :=
  match w.drive, disk with
  | .driveA, some d => if d.writeProtected then 0x42#8 else 0x02#8
  | _, _ => 0x00#8

/-- The sector of the image the WD1772 selects (43_wd1772_dma.md R320): by the head position, not the track register, the
side, and the sector register, whose numbers begin at 1. -/
def sectorIndex (w : Wd) (d : Floppy) : Int :=
  ((w.head : Int) * d.sides + w.side.toNat) * d.spt + (w.sector.toNat - 1)

/-- The sector the WD1772 selects lies outside the image (43_wd1772_dma.md R319). -/
def overruns (w : Wd) (d : Floppy) : Prop :=
  sectorIndex w d < 0 ∨ (d.payload.length : Int) < (sectorIndex w d + 1) * d.bps

/-- The RAM bytes that a DMA transfer of `n` bytes from `a` stores to: DMA reaches RAM only (20_memory.md R96). -/
def dmaTarget (p : Config.Params) (a : Addr) (n : Nat) (k : Nat) : Prop := k < ramBytes p ∧ dmaWindow a n k

end Sys2Proof
end

