-- ==== Sys2Proof/WellFormed.lean ====
section
/-! DEFINITION. WellFormed.lean: which operations are of the table. Only three kinds of row have an operand that can
be wrong: a plain-storage access at an address that is not plain storage (20_memory.md R89), a bus-error access that
does not touch its range (R90), and an unknown first byte that is in the length table (44_acia_ikbd.md R370). -/

namespace Sys2Proof

open Machine

/-- An unclaimed I/O address with no row of its own, and an access that stays clear of the bus-error ranges (R89). -/
def isUnclaimed (a : Addr) (acc : Access) : Bool :=
  0xFF8000 ≤ a.toNat && (ioReg a).isNone && (tableFind plainRegTable a.toNat).isNone && !isPalette a
    && (firstBusError (accessWidth acc) a).isNone

/-- An access at an I/O address whose first byte in a bus-error range lies in that of `u` (R90). -/
def touchesBerr (u : BerrUnit) (a : Addr) (acc : Access) : Bool :=
  0xFF8000 ≤ a.toNat && (firstBusError (accessWidth acc) a).bind berrUnit == some u

/-- The operands of an operation are ones its row of the table has. -/
def Instr.wellFormed : Instr → Bool
  | .fdcDmaDataRd16 => true
  | .fdcDmaDataWr16 _ => true
  | .fdcDmaDataHiRd8 => true
  | .fdcDmaDataHiWr8 _ => true
  | .fdcDmaDataLoRd8 => true
  | .fdcDmaDataLoWr8 _ => true
  | .dmaStatusRd16 => true
  | .dmaModeWr16 _ => true
  | .dmaStatusHiRd8 => true
  | .dmaModeHiWr8 _ => true
  | .dmaStatusLoRd8 => true
  | .dmaModeLoWr8 _ => true
  | .dmaAddrHiRd8 => true
  | .dmaAddrHiWr8 _ => true
  | .dmaAddrMidRd8 => true
  | .dmaAddrMidWr8 _ => true
  | .dmaAddrLoRd8 => true
  | .dmaAddrLoWr8 _ => true
  | .ymSelectWr8 _ => true
  | .ymDataRd8 => true
  | .ymDataWr8 _ => true
  | .ymFf8802Rd8 => true
  | .mfpGpipRd8 => true
  | .mfpGpipWr8 _ => true
  | .mfpAerRd8 => true
  | .mfpAerWr8 _ => true
  | .mfpDdrRd8 => true
  | .mfpDdrWr8 _ => true
  | .mfpIeraRd8 => true
  | .mfpIeraWr8 _ => true
  | .mfpIerbRd8 => true
  | .mfpIerbWr8 _ => true
  | .mfpIpraRd8 => true
  | .mfpIpraWr8 _ => true
  | .mfpIprbRd8 => true
  | .mfpIprbWr8 _ => true
  | .mfpIsraRd8 => true
  | .mfpIsraWr8 _ => true
  | .mfpIsrbRd8 => true
  | .mfpIsrbWr8 _ => true
  | .mfpImraRd8 => true
  | .mfpImraWr8 _ => true
  | .mfpImrbRd8 => true
  | .mfpImrbWr8 _ => true
  | .mfpVrRd8 => true
  | .mfpVrWr8 _ => true
  | .mfpTacrRd8 => true
  | .mfpTacrWr8 _ => true
  | .mfpTbcrRd8 => true
  | .mfpTbcrWr8 _ => true
  | .mfpTcdcrRd8 => true
  | .mfpTcdcrWr8 _ => true
  | .mfpTadrRd8 => true
  | .mfpTadrWr8 _ => true
  | .mfpTbdrRd8 => true
  | .mfpTbdrWr8 _ => true
  | .mfpTcdrRd8 => true
  | .mfpTcdrWr8 _ => true
  | .mfpTddrRd8 => true
  | .mfpTddrWr8 _ => true
  | .aciaStatusRd8 => true
  | .aciaControlWr8 _ => true
  | .aciaDataRd8 => true
  | .aciaDataWr8 _ => true
  | .mmuConfig _ => true
  | .videoBaseHi _ => true
  | .videoBaseMid _ => true
  | .videoCounterHi _ => true
  | .videoCounterMid _ => true
  | .videoCounterLo _ => true
  | .syncMode _ => true
  | .palette _ _ => true
  | .resolution _ => true
  | .unclaimedIo a acc => isUnclaimed a acc
  | .berrSteDmaSound a acc => touchesBerr .steSound a acc
  | .berrBlitter a acc => touchesBerr .blitter a acc
  | .berrSteJoystick a acc => touchesBerr .steJoystick a acc
  | .fdcRestore _ => true
  | .fdcSeek _ => true
  | .fdcStep _ => true
  | .fdcStepU _ => true
  | .fdcStepIn _ => true
  | .fdcStepInU _ => true
  | .fdcStepOut _ => true
  | .fdcStepOutU _ => true
  | .fdcReadSector _ => true
  | .fdcReadSectorMulti _ => true
  | .fdcWriteSector _ => true
  | .fdcWriteSectorMulti _ => true
  | .fdcReadAddress _ => true
  | .fdcForceInterrupt _ => true
  | .fdcReadTrack _ => true
  | .fdcWriteTrack _ => true
  | .setMouseButtonAction _ => true
  | .setRelativeMouse => true
  | .setAbsoluteMouse _ _ _ _ => true
  | .setMouseKeycodeMode _ _ => true
  | .setMouseThreshold _ _ => true
  | .setMouseScale _ _ => true
  | .interrogateMousePosition => true
  | .loadMousePosition _ _ _ _ _ => true
  | .setYAtBottom => true
  | .setYAtTop => true
  | .resume => true
  | .disableMouse => true
  | .pauseOutput => true
  | .setJoystickEventReporting => true
  | .setJoystickInterrogationMode => true
  | .joystickInterrogate => true
  | .setJoystickMonitoring _ => true
  | .setFireButtonMonitoring => true
  | .setJoystickKeycodeMode _ _ _ _ _ _ => true
  | .disableJoysticks => true
  | .timeOfDayClockSet _ _ _ _ _ _ => true
  | .interrogateTimeOfDayClock => true
  | .memoryLoad _ _ _ => true
  | .memoryRead _ _ => true
  | .controllerExecute _ _ => true
  | .ikbdReset _ => true
  | .statusInquiry87 => true
  | .statusInquiry88 => true
  | .statusInquiry89 => true
  | .statusInquiry8A => true
  | .statusInquiry8B => true
  | .statusInquiry8C => true
  | .statusInquiry8F => true
  | .statusInquiry90 => true
  | .statusInquiry92 => true
  | .statusInquiry94 => true
  | .statusInquiry95 => true
  | .statusInquiry99 => true
  | .statusInquiry9A => true
  | .unknownFirstByte b => (ikbdLen b).isNone
  | .ymToneAFine _ => true
  | .ymToneACoarse _ => true
  | .ymToneBFine _ => true
  | .ymToneBCoarse _ => true
  | .ymToneCFine _ => true
  | .ymToneCCoarse _ => true
  | .ymNoisePeriod _ => true
  | .ymMixerEnable _ => true
  | .ymLevelA _ => true
  | .ymLevelB _ => true
  | .ymLevelC _ => true
  | .ymEnvPeriodFine _ => true
  | .ymEnvPeriodCoarse _ => true
  | .ymEnvShape _ => true
  | .ymPortA _ => true
  | .ymPortB _ => true
  | .iackL1 => true
  | .iackL2 => true
  | .iackL3 => true
  | .iackL4 => true
  | .iackL5 => true
  | .iackL6 => true
  | .iackL7 => true

end Sys2Proof
end

