-- ==== Sys2Proof/Certificates/Slice0/Obligations.lean ====
section
/-! DEFINITION. Certificates/Slice0/Obligations.lean: the statements about this machine, from the numbered rules of
spec/. Where a statement says `exec i s = .next t` for a `t` written as `s` with some fields replaced, every register,
flag and byte of memory not written there is unchanged: the equation is result, completion and frame in one. -/

open Sys2Proof Sys2Proof.Machine

/-! The decoder and the step. -/

/-- A few frames written out from the encodings of 30_encoding.md R133, R136, R137, R144, R145, R147 and R148 decode to
the operations they stand for (the frame's layout is log 1). -/
def Obligations.FramesDecodeToTheirRows : Prop :=
  decode [0x04, 0x86, 0xFF, 5, 0x00, 0x80] = .ok (.fdcDmaDataWr16 0x0080, [])
    ∧ decode [0x1D, 0xFA, 0xFF, 4, 0x51] = .ok (.mfpTcdcrWr8 0x51, [])
    ∧ decode [0x02, 0xFC, 0xFF, 1] = .ok (.aciaDataRd8, [])
    ∧ decode [0x90, 1, 0] = .ok (.fdcReadSectorMulti 0x0, [])
    ∧ decode [0x80, 2, 0, 0x01] = .ok (.ikbdReset 0x01, [])
    ∧ decode [0x0D, 3, 0, 0x0A] = .ok (.ymEnvShape 0x0A, [])
    ∧ decode [0x06, 4, 0] = .ok (.iackL6, [])
    ∧ decode [0x00, 0x89, 0xFF, 2] = .ok (.berrSteDmaSound 0xFF8900 .rd16, [])
    ∧ decode [0x40, 0x82, 0xFF, 5, 0x07, 0x77] = .ok (.palette 0 (.wr16 0x0777), [])

/-- A step of a state that can run executes the operation its pending frame decodes to, with the rest of the frames
left; with nothing pending the first turn listed is taken, the emulator's, the host's with its oldest queued step, or an
audio pull, and where none is listed free turns and host steps arrive first. That a step runs the first pending frame, and
runs it before any agent's turn, is the model's choice (log 1), and so are the lists of turns and steps, and that they
arrive so (log 14); the rules say what an operation does and how the agents interleave (20_memory.md R103; 10_state.md
R65). A run that a shutdown has ended stays as it is, whatever is pending (46_frame_loop.md R440); the action `ended` that
says so is the model's choice (log 18). -/
def Obligations.StepRunsTheDecodedOperation : Prop :=
  (∀ s : State, Unmarked s → s.loop.act = .ended → step s = .next s)
  ∧ (∀ (s : State) (i : Instr) (rest : List Byte), Running s → decode s.ops = .ok (i, rest) → i.wellFormed = true →
    step s = exec i { s with ops := rest })
  ∧ ∀ s : State, Running s → s.ops = [] →
    (s.host.turns = [] → step s = step { s with
      draws := s.draws + 1
      host := { s.host with
        turns := Config.hostTurns s.draws ++ [.emulator], inbox := s.host.inbox ++ Config.hostSteps s.draws } })
    ∧ ∀ (t : Config.Turn) (ts : List Config.Turn) (u : State), s.host.turns = t :: ts →
      u = { s with host := { s.host with turns := ts } } →
      step s = match t with
        | .emulator => emulatorStep u
        | .host => .next (match u.host.inbox with
          | [] => u
          | x :: xs => deliver x { u with host := { u.host with inbox := xs } })
        | .audio n => .next (audioPull n u)

/-- No bit of an encoding is dropped: for every operation of the table whose operands are ones its row has, decoding its
frame gives it back, with whatever follows the frame. -/
def Obligations.DecodeOfEncodeIsTheOperation : Prop :=
  ∀ (i : Instr) (rest : List Byte), i.wellFormed = true → decode (encode i ++ rest) = .ok (i, rest)

/-- Whatever the decoder accepts is an operation of the table with operands its row has, and the bytes it read come
first in the list (30_encoding.md R130, R150). -/
def Obligations.DecodedOperationsAreWellFormed : Prop :=
  ∀ (bs : List Byte) (i : Instr) (rest : List Byte), decode bs = .ok (i, rest) →
    i.wellFormed = true ∧ ∃ used, used ≠ [] ∧ bs = used ++ rest

/-- A CPU access to the bus does what the row of the table for it does (20_memory.md R84, R85, R87, R88, R91;
30_encoding.md R130). -/
def Obligations.BusAccessRunsItsRow : Prop :=
  ∀ (a : Addr) (acc : Access) (i : Instr) (s : State), decodeBus a acc = .ok i → busAccess a acc s = exec i s

/-- A word access that has no handler of its own is two byte accesses, high byte first, and a long access is two word
accesses; a read answers the two values side by side (20_memory.md R83, R85, R86, R91). -/
def Obligations.WideAccessesAreSplit : Prop :=
  (∀ (a : Addr) (v : Half) (s : State), firstBusError .word a = none → a ≠ 0xFF8604#24 → a ≠ 0xFF8606#24 →
    busAccess a (.wr16 v) s
      = andThen (busAccess a (.wr8 (v.extractLsb' 8 8)) s) (busAccess (a + 1) (.wr8 (v.extractLsb' 0 8))))
  ∧ (∀ (a : Addr) (v : Word) (s : State), firstBusError .long a = none →
    busAccess a (.wr32 v) s
      = andThen (busAccess a (.wr16 (v.extractLsb' 16 16)) s) (busAccess (a + 2) (.wr16 (v.extractLsb' 0 16))))
  ∧ (∀ (a : Addr) (s : State), firstBusError .word a = none → a ≠ 0xFF8604#24 → a ≠ 0xFF8606#24 →
    ∃ u t : State, busAccess a .rd8 s = .next u ∧ busAccess (a + 1) .rd8 u = .next t ∧
      busAccess a .rd16 s
        = .next { t with bus := (u.bus.extractLsb' 0 8 ++ t.bus.extractLsb' 0 8).setWidth 32 })
  ∧ ∀ (a : Addr) (s : State), firstBusError .long a = none →
    ∃ u t : State, busAccess a .rd16 s = .next u ∧ busAccess (a + 2) .rd16 u = .next t ∧
      busAccess a .rd32 s = .next { t with bus := u.bus.extractLsb' 0 16 ++ t.bus.extractLsb' 0 16 }

/-- RAM keeps what is written to it, byte by byte and big-endian; writes to the ROM and to its mirror at 0..7 change no
byte; an unmapped byte reads 0xFF, and a write to it changes nothing (20_memory.md R82, R83, R87, R92). -/
def Obligations.RamRomAndUnmappedAccesses : Prop :=
  (∀ (a : Addr) (v : Half) (s : State), MemOk s → inRam s.params a 2 →
    ∃ t : State, busAccess a (.wr16 v) s = .next t ∧ wordAt t a.toNat = v ∧ t = { s with mem := t.mem }
      ∧ SameBytesBut (fun k => k = a.toNat ∨ k = a.toNat + 1) s t
      ∧ busAccess a .rd16 t = .next { t with bus := v.setWidth 32 })
  ∧ (∀ (a : Addr) (v : Byte) (s : State), MemOk s → inRam s.params a 1 →
    ∃ t : State, busAccess a (.wr8 v) s = .next t ∧ storedByte t a.toNat = v ∧ t = { s with mem := t.mem }
      ∧ SameBytesBut (fun k => k = a.toNat) s t
      ∧ busAccess a .rd8 t = .next { t with bus := v.setWidth 32 })
  ∧ (∀ (a : Addr) (v : Byte) (s : State),
    a.toNat < 8 ∨ (tosBase s.params ≤ a.toNat ∧ a.toNat < tosBase s.params + tosBytes s.params)
      → busAccess a (.wr8 v) s = .next s)
  ∧ (∀ (a : Addr) (s : State), a.toNat < 8 → peekByte s a = romByte s a.toNat)
  ∧ ∀ (a : Addr) (v : Byte) (s : State),
    (ramBytes s.params ≤ a.toNat ∧ a.toNat < tosBase s.params)
      ∨ (tosBase s.params + tosBytes s.params ≤ a.toNat ∧ a.toNat < 0xFF8000)
    → busAccess a .rd8 s = .next { s with bus := 0xFF } ∧ busAccess a (.wr8 v) s = .next s

/-! What every step keeps. -/

/-- Memory keeps its canonical form at every step, from every state that has it (log 4). -/
def Obligations.StepKeepsMemoryCanonical : Prop :=
  ∀ s t : State, MemOk s → step s = .next t → MemOk t

/-- Every step keeps `arb.MFP` equal to the MFP's request and the IPL equal to the level of the arbiter's flags, so that
no interrupt level but 0, 2, 4 and 6 is ever driven (40_cpu_integration.md R180, R181; 41_mfp68901.md R226). -/
def Obligations.StepKeepsInterruptLines : Prop :=
  ∀ s t : State, IrqOk s → step s = .next t → IrqOk t

/-- Every step keeps each MFP main counter in 1..256 and the accumulator below CPU_HZ (10_state.md R47;
41_mfp68901.md R217, R218). -/
def Obligations.StepKeepsTimersInRange : Prop :=
  ∀ s t : State, MfpOk s → step s = .next t → MfpOk t

/-- Every step keeps the LFSR nonzero, the envelope position in 0..95, the carried cycles below 32, and the audio ring
within its cap (42_ym2149.md R257, R262, R264, R267). -/
def Obligations.StepKeepsSoundGeneratorInRange : Prop :=
  ∀ s t : State, YmOk s → step s = .next t → YmOk t

/-- Between steps no WD1772 command is in progress: BUSY is clear and the multi-sector flag is off (43_wd1772_dma.md R310,
R332). That BUSY may stay set in a status a track command drew under `havoc` is the model's reading of R324 and R325
(log 31), so that under `havoc` the statement claims the flag alone. -/
def Obligations.StepLeavesNoFdcCommandRunning : Prop :=
  ∀ s t : State, WdOk s → step s = .next t → WdOk t

/-- The ACIA status is 0x83 while a byte is latched and 0x02 while none is, at every step (44_acia_ikbd.md R360, R366,
R367). -/
def Obligations.StepKeepsAciaStatus : Prop :=
  ∀ s t : State, AciaOk s → step s = .next t → AciaOk t

/-- The framebuffer stays 200 rows of 640 words and the line stays one of the 313 (10_state.md R63, R64). -/
def Obligations.StepKeepsFramebufferShape : Prop :=
  ∀ s t : State, VideoOk s → step s = .next t → VideoOk t

/-- The SR bits that read 0 stay 0 at every step (10_state.md R34). -/
def Obligations.StepKeepsReservedSrBits : Prop :=
  ∀ s t : State, SrOk s → step s = .next t → SrOk t

/-- No step changes a byte of the ROM or a parameter: neither a CPU write, nor DMA, nor a reset (20_memory.md R87, R92,
R96). -/
def Obligations.StepKeepsRomAndParameters : Prop :=
  ∀ s t : State, step s = .next t → SameRom s t

/-- A mark is never lost, and a state that carries one takes no step (10_state.md R65; 60_exceptions.md R468). The form is
the model's choice (log 17): a marked state answers its mark at every step, and no step adds a mark, since a fault or a
refusal is the outcome of the step that raises it. -/
def Obligations.MarkedStatesTakeNoStep : Prop :=
  (∀ (s : State) (f : Fault) (fs : List Fault), s.faults = f :: fs → step s = .fault f)
  ∧ (∀ s : State, s.faults = [] → s.refused = true → step s = .refused .markedRefused)
  ∧ ∀ s t : State, step s = .next t → t.faults = s.faults ∧ t.refused = s.refused

/-- From user mode, one boundary of the core either enters supervisor mode (an exception or an interrupt) or leaves the
system byte of SR and the supervisor stack pointer as they were: no user-mode instruction changes them
(60_exceptions.md R465, R466). -/
def Obligations.UserModeKeepsSystemState : Prop :=
  ∀ s t : State, srS s.cpu.regs.sr = false → coreStep s = .next t →
    srS t.cpu.regs.sr = true
      ∨ (t.cpu.regs.sr.extractLsb' 8 8 = s.cpu.regs.sr.extractLsb' 8 8 ∧ t.cpu.regs.ssp = s.cpu.regs.ssp)

/-- STOP at mask 7 never resumes: while the core is stopped with the interrupt mask 7, no step of the emulator agent runs
an instruction or accepts an interrupt, and only a host reset ends it (60_exceptions.md R467; 40_cpu_integration.md
R173, R179, R181). -/
def Obligations.StopAtMaskSevenNeverResumes : Prop :=
  ∀ s t : State, IrqOk s → s.cpu.stopped = true → srMask s.cpu.regs.sr = 7 → emulatorStep s = .next t →
    (t.cpu.stopped = true ∧ t.cpu.regs = s.cpu.regs)
      ∨ (s.loop.act = .latch ∧ s.loop.running = false ∧ s.loop.request = some .reset)

/-! Reset. -/

/-- The state after power-on meets every invariant stated here. -/
def Obligations.ResetMeetsTheInvariants : Prop :=
  MemOk State.reset ∧ IrqOk State.reset ∧ MfpOk State.reset ∧ YmOk State.reset ∧ WdOk State.reset
    ∧ AciaOk State.reset ∧ VideoOk State.reset ∧ SrOk State.reset ∧ Running State.reset

/-- What reset leaves in the arbiter, the MFP, the YM2149, the WD1772 and its DMA, the ACIA and IKBD, and the video
(10_state.md R69..R74). -/
def Obligations.ResetDeviceValues : Prop :=
  State.reset.arb = { hbl := false, vbl := false, mfp := false }
    ∧ (State.reset.mfp.aer = 0x00 ∧ State.reset.mfp.gpip = 0xFF ∧ State.reset.mfp.vr = 0x40
      ∧ State.reset.mfp.iera = 0 ∧ State.reset.mfp.ierb = 0 ∧ State.reset.mfp.ipra = 0 ∧ State.reset.mfp.iprb = 0
      ∧ State.reset.mfp.isra = 0 ∧ State.reset.mfp.isrb = 0 ∧ State.reset.mfp.imra = 0 ∧ State.reset.mfp.imrb = 0
      ∧ State.reset.mfp.ddr = 0 ∧ State.reset.mfp.tacr = 0 ∧ State.reset.mfp.tbcr = 0 ∧ State.reset.mfp.tcdcr = 0
      ∧ State.reset.mfp.tadr = 0 ∧ State.reset.mfp.tbdr = 0 ∧ State.reset.mfp.tcdr = 0 ∧ State.reset.mfp.tddr = 0
      ∧ (∀ x : Timer, timerCounter State.reset.mfp x = { cnt := 256, phase := 0 }) ∧ State.reset.mfp.acc = 0)
    ∧ ((∀ n : BitVec 4, ymReg State.reset.ym n = if n = 7 then 0xFF else 0x00) ∧ State.reset.ym.rng = 1
      ∧ State.reset.ym.sel = 0 ∧ State.reset.ym.toneA = { cnt := 0, sq := false }
      ∧ State.reset.ym.toneB = { cnt := 0, sq := false } ∧ State.reset.ym.toneC = { cnt := 0, sq := false }
      ∧ State.reset.ym.ncnt = 0 ∧ State.reset.ym.noise = false ∧ State.reset.ym.envPos = 0
      ∧ State.reset.ym.envCnt = 0 ∧ State.reset.ym.cyc = 0 ∧ State.reset.ym.racc = 0
      ∧ State.reset.ym.xPrev = 0 ∧ State.reset.ym.yPrev = 0 ∧ State.reset.ym.ring = [] ∧ State.reset.ym.last = 0)
    ∧ (State.reset.acia.queue = [] ∧ State.reset.acia.latch = 0 ∧ State.reset.acia.hasLatched = false
      ∧ State.reset.acia.status = 0x02 ∧ bit State.reset.mfp.gpip 4 = true ∧ State.reset.acia.control = 0
      ∧ State.reset.acia.wait = 0 ∧ State.reset.ikbd.cmd = [] ∧ State.reset.ikbd.joy = 0
      ∧ State.reset.ikbd.buttons = 0 ∧ State.reset.ikbd.mouseOn = false ∧ State.reset.ikbd.joyOn = false)
    ∧ (State.reset.wd.command = 0 ∧ State.reset.wd.status = 0 ∧ State.reset.wd.track = 0 ∧ State.reset.wd.sector = 0
      ∧ State.reset.wd.data = 0 ∧ State.reset.wd.dmaMode = 0 ∧ State.reset.wd.dmaCount = 0
      ∧ State.reset.wd.dmaAddr = 0 ∧ State.reset.wd.dmaError = false ∧ State.reset.wd.prevDir = false
      ∧ State.reset.wd.drive = .noDrive ∧ State.reset.wd.side = 0 ∧ State.reset.wd.head = 0
      ∧ State.reset.wd.multi = false ∧ State.reset.wd.stepDir = .inward)
    ∧ (State.reset.video.counter = 0 ∧ State.reset.loop.scanline = 0 ∧ State.reset.loop.running = true
      ∧ ∀ row ∈ State.reset.video.fb, ∀ w ∈ row, w = 0xFF000000)

/-- What reset leaves in the core: SSP and PC are the longs at addresses 0 and 4, read through the ROM mirror (10_state.md
R68; 40_cpu_integration.md R171; 20_memory.md R92). -/
def Obligations.ResetCoreValues : Prop :=
  State.reset.cpu.regs.d = Vector.replicate 8 0 ∧ State.reset.cpu.regs.a = Vector.replicate 7 0
    ∧ State.reset.cpu.regs.usp = 0 ∧ State.reset.cpu.regs.sr = 0x2700
    ∧ State.reset.cpu.regs.ssp = peekLong State.reset 0 ∧ State.reset.cpu.regs.pc = peekLong State.reset 4
    ∧ State.reset.cpu.ipl = 0 ∧ State.reset.cpu.clock = 0
    ∧ State.reset.faults = [] ∧ State.reset.refused = false

/-- A host reset takes effect where the loop tests `running` before its next frame: every device and the core are at their
reset values, and memory, the disk and the marks are kept (70_reset_and_hazards.md R491; 46_frame_loop.md R440;
10_state.md R75). That the test and the reset are one step is the model's choice (log 18). -/
def Obligations.WarmResetKeepsMemoryAndDisk : Prop :=
  ∀ s : State, s.loop.act = .latch → s.loop.running = false → s.loop.request = some .reset →
    ∃ t : State, emulatorStep s = .next t ∧ SameBytes s t ∧ t.disk = s.disk ∧ t.params = s.params
      ∧ t.faults = s.faults ∧ t.refused = s.refused
      ∧ t.arb = State.reset.arb ∧ t.mfp = State.reset.mfp ∧ t.ym = State.reset.ym ∧ t.wd = State.reset.wd
      ∧ t.acia = State.reset.acia ∧ t.ikbd = State.reset.ikbd ∧ t.video.counter = 0
      ∧ t.video.fb = State.reset.video.fb ∧ t.loop = State.reset.loop ∧ t.cpu.ipl = 0 ∧ t.cpu.clock = 0
      ∧ t.cpu.regs = { State.reset.cpu.regs with ssp := peekLong s 0, pc := peekLong s 4 }

/-- Power-on with a TOS image of one of the two lengths: the ROM and its mirror at 0..7 are the image, every byte of RAM is
the one the reset state has there and the I/O mirror is zero, and the core starts from the image's first eight bytes
(70_reset_and_hazards.md R490; 10_state.md R67, R68). -/
def Obligations.PowerOnLoadsTheImage : Prop :=
  ∀ (p : Config.Params) (image : List Byte) (d : Option Floppy), image.length = tosBytes p →
    MemOk (powerOnState p image d)
      ∧ (∀ i (h : i < image.length), romByte (powerOnState p image d) i = image[i])
      ∧ (∀ a : Addr, a.toNat < 8 → peekByte (powerOnState p image d) a = image[a.toNat]!)
      ∧ (∀ i, i < ramBytes p →
          storedByte (powerOnState p image d) i = storedByte { State.reset with params := p } i)
      ∧ (∀ i, i < 0x8000 → ioByte (powerOnState p image d) i = 0)
      ∧ (powerOnState p image d).cpu.regs.ssp = (image[0]! ++ image[1]!) ++ (image[2]! ++ image[3]!)
      ∧ (powerOnState p image d).cpu.regs.pc = (image[4]! ++ image[5]!) ++ (image[6]! ++ image[7]!)
      ∧ (powerOnState p image d).disk = d

/-- Power-on does not start the block, with the refusal ConfigError, on a malformed JSON document, an unreadable TOS file,
a TOS image of another length, a `RAMConfiguration` outside 0..3, an `STModel` that is not 0, a mouse sensitivity that is
not positive, a sample rate outside 1..16384000000, or a floppy file that is unreadable or rejected; it starts on any
other configuration, with the configured parameters. With `--help` it does not start at all (70_reset_and_hazards.md R490,
R494, R495). -/
def Obligations.ConfigurationErrorsRefuse : Prop :=
  ∀ (p : Config.Params) (doc : Option JsonConfig) (cli : List CliFlag),
    (.help ∈ cli → powerOn p doc cli = none)
    ∧ (.help ∉ cli → jsonInForce doc cli = none → powerOn p doc cli = some (.refused .configError))
    ∧ ∀ (j : JsonConfig) (c : BootConfig), .help ∉ cli → jsonInForce doc cli = some j → c = combineConfig p j cli →
      (c.tos = none → powerOn p doc cli = some (.refused .configError))
      ∧ ∀ image : List Byte, c.tos = some image →
        ((image.length ≠ 0x30000 ∧ image.length ≠ 0x40000) ∨ c.ramConfiguration < 0 ∨ 3 < c.ramConfiguration
            ∨ c.stModel ≠ 0 ∨ c.mouseX ≤ 0 ∨ c.mouseY ≤ 0 ∨ c.sampleRate ≤ 0 ∨ 16384000000 < c.sampleRate
            ∨ c.floppy = some none ∨ (∃ f, c.floppy = some (some f) ∧ loadFloppy p.msaSides f = none) →
          powerOn p doc cli = some (.refused .configError))
        ∧ ((image.length = 0x30000 ∨ image.length = 0x40000) → 0 ≤ c.ramConfiguration → c.ramConfiguration ≤ 3 →
            c.stModel = 0 → 0 < c.mouseX → 0 < c.mouseY → 0 < c.sampleRate → c.sampleRate ≤ 16384000000 →
            ∀ d : Option Floppy,
            ((c.floppy = none ∧ d = none) ∨ ∃ f x, c.floppy = some (some f) ∧ loadFloppy p.msaSides f = some x ∧ d = some x) →
          ∃ q, powerOn p doc cli = some (.next (powerOnState q image d)) ∧ tosBytes q = image.length
            ∧ ramBytes q = 0x80000 * 2 ^ c.ramConfiguration.toNat ∧ (q.hostRate : Int) = c.sampleRate
            ∧ (q.mouseSensX : Int) = c.mouseX ∧ (q.mouseSensY : Int) = c.mouseY ∧ q.maxSpeed = c.maxSpeed
            ∧ (ikbdLensOk p = true → validParams q = true))

/-! FDC and DMA registers. -/

/-- The accesses at 0xFF8604 reach the sector count, nothing, or the FDC register that the DMA mode selects; a read of the
status register raises GPIP5 (43_wd1772_dma.md R300..R303, R327). Covers FDC_DMA_DATA_RD16, _WR16, _HI_RD8, _HI_WR8,
_LO_RD8 and _LO_WR8. -/
def Obligations.FdcDataAccessesReachTheSelectedRegister : Prop :=
  ∀ (s : State) (hi v : Byte),
    (∀ i ∈ [Instr.fdcDmaDataRd16, Instr.fdcDmaDataLoRd8], exec i s =
      if s.wd.dmaMode.getLsbD 4 then .next { s with bus := s.wd.dmaCount.setWidth 32 }
      else if s.wd.dmaMode.getLsbD 3 then .next { s with bus := 0xFF }
      else if s.wd.dmaMode.extractLsb' 1 2 = 0 then
        .next { withIrq (fdcLine s.params true s.mfp) s with bus := s.wd.status.setWidth 32 }
      else if s.wd.dmaMode.extractLsb' 1 2 = 1 then .next { s with bus := s.wd.track.setWidth 32 }
      else if s.wd.dmaMode.extractLsb' 1 2 = 2 then .next { s with bus := s.wd.sector.setWidth 32 }
      else .next { s with bus := s.wd.data.setWidth 32 })
    ∧ exec .fdcDmaDataHiRd8 s = .next { s with bus := 0x00 }
    ∧ (∀ i ∈ [Instr.fdcDmaDataWr16 (hi ++ v), Instr.fdcDmaDataLoWr8 v], exec i s =
      if s.wd.dmaMode.getLsbD 4 then .next { s with wd := { s.wd with dmaCount := v } }
      else if s.wd.dmaMode.getLsbD 3 then .next s
      else if s.wd.dmaMode.extractLsb' 1 2 = 0 then exec (decodeFdc v) s
      else if s.wd.dmaMode.extractLsb' 1 2 = 1 then .next { s with wd := { s.wd with track := v } }
      else if s.wd.dmaMode.extractLsb' 1 2 = 2 then .next { s with wd := { s.wd with sector := v } }
      else .next { s with wd := { s.wd with data := v } })
    ∧ exec (.fdcDmaDataHiWr8 v) s = .next s

/-- The DMA mode, status and address accesses (43_wd1772_dma.md R305..R308): a change of the direction bit clears the
count and the error. Covers DMA_MODE_WR16, _HI_WR8, _LO_WR8, DMA_STATUS_RD16, _HI_RD8, _LO_RD8, and the six accesses
DMA_ADDR_HI, _MID, _LO. -/
def Obligations.DmaRegisterAccesses : Prop :=
  ∀ (s : State) (m : Half) (b : Byte),
    (∀ p ∈ [(Instr.dmaModeWr16 m, m), (Instr.dmaModeHiWr8 b, b ++ s.wd.dmaMode.extractLsb' 0 8),
        (Instr.dmaModeLoWr8 b, s.wd.dmaMode.extractLsb' 8 8 ++ b)],
      exec p.1 s = .next { s with wd := { s.wd with
        dmaMode := p.2
        prevDir := p.2.getLsbD 8
        dmaCount := if p.2.getLsbD 8 = s.wd.prevDir then s.wd.dmaCount else 0
        dmaError := if p.2.getLsbD 8 = s.wd.prevDir then s.wd.dmaError else false } })
    ∧ (∀ p ∈ [(Instr.dmaStatusRd16, (if s.wd.dmaError then 0 else 1#32) + if s.wd.dmaCount = 0 then 0 else 2#32),
        (Instr.dmaStatusLoRd8, (if s.wd.dmaError then 0 else 1#32) + if s.wd.dmaCount = 0 then 0 else 2#32),
        (Instr.dmaStatusHiRd8, 0#32),
        (Instr.dmaAddrHiRd8, (s.wd.dmaAddr >>> 16).setWidth 32 &&& 0xFF#32),
        (Instr.dmaAddrMidRd8, (s.wd.dmaAddr >>> 8).setWidth 32 &&& 0xFF#32),
        (Instr.dmaAddrLoRd8, s.wd.dmaAddr.setWidth 32 &&& 0xFF#32)],
      exec p.1 s = .next { s with bus := p.2 })
    ∧ ∀ p ∈ [(Instr.dmaAddrHiWr8 b, (s.wd.dmaAddr &&& 0x00FFFF#24) ||| (b.setWidth 24 <<< 16)),
        (Instr.dmaAddrMidWr8 b, (s.wd.dmaAddr &&& 0xFF00FF#24) ||| (b.setWidth 24 <<< 8)),
        (Instr.dmaAddrLoWr8 b, (s.wd.dmaAddr &&& 0xFFFF00#24) ||| (b &&& 0xFE#8).setWidth 24)],
      exec p.1 s = .next { s with wd := { s.wd with dmaAddr := p.2 } }

/-! WD1772 commands. -/

/-- The type I commands (43_wd1772_dma.md R311..R316): the head, the track register, the latched direction, the status,
the command byte, and the completion pulse on GPIP5; nothing else moves. Covers RESTORE, SEEK, STEP, STEP_U, STEP_IN,
STEP_IN_U, STEP_OUT and STEP_OUT_U with every flag nibble. That the head's limit is 0 for an image of no tracks is the
model's choice (log 39). -/
def Obligations.TypeOneCommandsMoveTheHead : Prop :=
  ∀ (s : State) (fl : BitVec 4) (limit : Nat) (up down : Nat),
    limit = (match s.disk with | some d => d.tracks - 1 | none => 255) →
    up = min (s.wd.head + 1) limit → down = min (s.wd.head - 1) limit →
    ∀ c ∈ [(Instr.fdcRestore fl, 0x0#4 ++ fl, 0, 0#8, s.wd.stepDir),
        (Instr.fdcSeek fl, 0x1#4 ++ fl, min s.wd.data.toNat limit, s.wd.data, s.wd.stepDir),
        (Instr.fdcStep fl, 0x2#4 ++ fl, if s.wd.stepDir = .inward then up else down, s.wd.track, s.wd.stepDir),
        (Instr.fdcStepU fl, 0x3#4 ++ fl, if s.wd.stepDir = .inward then up else down,
          if s.wd.stepDir = .inward then s.wd.track + 1 else s.wd.track - 1, s.wd.stepDir),
        (Instr.fdcStepIn fl, 0x4#4 ++ fl, up, s.wd.track, StepDir.inward),
        (Instr.fdcStepInU fl, 0x5#4 ++ fl, up, s.wd.track + 1, StepDir.inward),
        (Instr.fdcStepOut fl, 0x6#4 ++ fl, down, s.wd.track, StepDir.outward),
        (Instr.fdcStepOutU fl, 0x7#4 ++ fl, down, s.wd.track - 1, StepDir.outward)],
      exec c.1 s = .next { withIrq (fdcPulse s.params s.mfp) s with
        wd := { s.wd with
          command := c.2.1, head := c.2.2.1, track := c.2.2.2.1, stepDir := c.2.2.2.2, multi := false
          status := (if c.2.2.1 = 0 then 0xA4#8 else 0xA0#8) ||| diskBits s.wd s.disk } }

/-- How a command of type II or III fails (43_wd1772_dma.md R317, R318, R321..R323): with no disk seen, on a sector the
image does not hold, and on a write to a protected disk; the status, the DMA error and the completion pulse are all that
is left behind. A multiple command that fails on a later sector leaves besides the sectors moved before it, its count,
sector register and DMA address after them; which bytes these are, the statements of READ SECTOR multiple and WRITE SECTOR
multiple say. Covers READ_SECTOR, READ_SECTOR_MULTI, WRITE_SECTOR, WRITE_SECTOR_MULTI and READ_ADDRESS. -/
def Obligations.FailedCommandsReportTheirStatus : Prop :=
  ∀ (s : State) (fl : BitVec 4) (failed : Byte → Byte → State),
    (∀ c st, failed c st = { withIrq (fdcPulse s.params s.mfp) s with
      wd := { s.wd with command := c, status := st, dmaError := true, multi := false } }) →
    (¬ (s.wd.drive = .driveA ∧ s.disk.isSome) →
      exec (.fdcReadSector fl) s = .next (failed (0x8#4 ++ fl) 0x10)
        ∧ exec (.fdcReadSectorMulti fl) s = .next (failed (0x9#4 ++ fl) 0x10)
        ∧ exec (.fdcWriteSector fl) s = .next (failed (0xA#4 ++ fl) 0x10)
        ∧ exec (.fdcWriteSectorMulti fl) s = .next (failed (0xB#4 ++ fl) 0x10)
        ∧ exec (.fdcReadAddress fl) s = .next (failed (0xC#4 ++ fl) 0x10))
    ∧ ∀ d : Floppy, s.wd.drive = .driveA → s.disk = some d →
      (d.writeProtected = true →
        exec (.fdcWriteSector fl) s = .next (failed (0xA#4 ++ fl) 0x40)
          ∧ exec (.fdcWriteSectorMulti fl) s = .next (failed (0xB#4 ++ fl) 0x40))
      ∧ (overruns s.wd d →
        exec (.fdcReadSector fl) s = .next (failed (0x8#4 ++ fl) 0x10)
          ∧ (s.wd.dmaCount ≠ 0 → exec (.fdcReadSectorMulti fl) s = .next (failed (0x9#4 ++ fl) 0x10))
          ∧ (d.writeProtected = false →
            exec (.fdcWriteSector fl) s = .next (failed (0xA#4 ++ fl) 0x10)
              ∧ (s.wd.dmaCount ≠ 0 → exec (.fdcWriteSectorMulti fl) s = .next (failed (0xB#4 ++ fl) 0x10))))
      ∧ ∀ (n : Nat) (after : Wd → Wd),
        (∀ w, after w = { w with
          dmaCount := s.wd.dmaCount - BitVec.ofNat 8 n, sector := sectorAfter d.spt s.wd.sector n
          dmaAddr := s.wd.dmaAddr + BitVec.ofNat 24 (n * d.bps) }) →
        n < s.wd.dmaCount.toNat → (∀ i, i < n → ¬ overruns { s.wd with sector := sectorAfter d.spt s.wd.sector i } d) →
        overruns { s.wd with sector := sectorAfter d.spt s.wd.sector n } d →
        (∃ m : Memory, exec (.fdcReadSectorMulti fl) s = .next { failed (0x9#4 ++ fl) 0x10 with
            mem := m, wd := after (failed (0x9#4 ++ fl) 0x10).wd })
          ∧ (d.writeProtected = false →
            ∃ p : List Byte, exec (.fdcWriteSectorMulti fl) s = .next { failed (0xB#4 ++ fl) 0x10 with
              disk := some { d with payload := p }, wd := after (failed (0xB#4 ++ fl) 0x10).wd })

/-- READ SECTOR moves the selected sector of the image, the one at (head * sides + side) * spt + sector - 1, to RAM from the
DMA address on, and nothing else of memory; the count drops by one unless it is 0, and the sector register stays
(43_wd1772_dma.md R309, R317, R319, R320). -/
def Obligations.ReadSectorMovesOneSector : Prop :=
  ∀ (s : State) (fl : BitVec 4) (d : Floppy), MemOk s → s.wd.drive = .driveA → s.disk = some d →
    ¬ overruns s.wd d → d.bps ≤ 2 ^ 24 →
    ∃ t : State, exec (.fdcReadSector fl) s = .next t
      ∧ t = { withIrq (fdcPulse s.params s.mfp) s with
          mem := t.mem
          wd := { s.wd with
            command := 0x8#4 ++ fl, status := 0x00, multi := false
            dmaCount := if s.wd.dmaCount = 0 then 0 else s.wd.dmaCount - 1
            dmaAddr := s.wd.dmaAddr + BitVec.ofNat 24 d.bps } }
      ∧ SameBytesBut (dmaTarget s.params s.wd.dmaAddr d.bps) s t
      ∧ ∀ j, j < d.bps → (s.wd.dmaAddr + BitVec.ofNat 24 j).toNat < ramBytes s.params →
          storedByte t (s.wd.dmaAddr + BitVec.ofNat 24 j).toNat = d.payload.getD ((sectorIndex s.wd d).toNat * d.bps + j) 0

/-- READ SECTOR multiple moves as many sectors as the count holds, the sector number wrapping from the last to 1: the
count ends 0 and the DMA address has advanced by all of them. On the first sector the image does not hold it fails with the
status 0x10: the `n` sectors moved before it stay in RAM, and the count, the sector register and the DMA address are as
they left them (43_wd1772_dma.md R318, R319, R331). -/
def Obligations.ReadSectorMultipleMovesTheCount : Prop :=
  ∀ (s : State) (fl : BitVec 4) (d : Floppy) (n : Nat), MemOk s → s.wd.drive = .driveA → s.disk = some d →
    n ≤ s.wd.dmaCount.toNat →
    (∀ i, i < n → ¬ overruns { s.wd with sector := sectorAfter d.spt s.wd.sector i } d) →
    n = s.wd.dmaCount.toNat ∨ overruns { s.wd with sector := sectorAfter d.spt s.wd.sector n } d → n * d.bps ≤ 2 ^ 24 →
    ∃ t : State, exec (.fdcReadSectorMulti fl) s = .next t
      ∧ t = { withIrq (fdcPulse s.params s.mfp) s with
          mem := t.mem
          wd := { s.wd with
            command := 0x9#4 ++ fl, multi := false, dmaCount := s.wd.dmaCount - BitVec.ofNat 8 n
            status := if n = s.wd.dmaCount.toNat then 0x00 else 0x10
            dmaError := if n = s.wd.dmaCount.toNat then s.wd.dmaError else true
            sector := sectorAfter d.spt s.wd.sector n
            dmaAddr := s.wd.dmaAddr + BitVec.ofNat 24 (n * d.bps) } }
      ∧ SameBytesBut (dmaTarget s.params s.wd.dmaAddr (n * d.bps)) s t
      ∧ ∀ i j, i < n → j < d.bps →
          (s.wd.dmaAddr + BitVec.ofNat 24 (i * d.bps + j)).toNat < ramBytes s.params →
          storedByte t (s.wd.dmaAddr + BitVec.ofNat 24 (i * d.bps + j)).toNat
            = d.payload.getD
                ((sectorIndex { s.wd with sector := sectorAfter d.spt s.wd.sector i } d).toNat * d.bps + j) 0

/-- WRITE SECTOR replaces the selected sector of the image by the RAM bytes from the DMA address on, and no other byte of
it; memory does not change (43_wd1772_dma.md R309, R321; 20_memory.md R96). -/
def Obligations.WriteSectorReplacesOneSector : Prop :=
  ∀ (s : State) (fl : BitVec 4) (d : Floppy), s.wd.drive = .driveA → s.disk = some d →
    d.writeProtected = false → ¬ overruns s.wd d →
    ∃ p : List Byte, exec (.fdcWriteSector fl) s = .next { withIrq (fdcPulse s.params s.mfp) s with
        disk := some { d with payload := p }
        wd := { s.wd with
          command := 0xA#4 ++ fl, status := 0x00, multi := false
          dmaCount := if s.wd.dmaCount = 0 then 0 else s.wd.dmaCount - 1
          dmaAddr := s.wd.dmaAddr + BitVec.ofNat 24 d.bps } }
      ∧ p.length = d.payload.length
      ∧ (∀ j, j < d.bps → p.getD ((sectorIndex s.wd d).toNat * d.bps + j) 0
          = ramRead s (s.wd.dmaAddr + BitVec.ofNat 24 j))
      ∧ ∀ k, k < (sectorIndex s.wd d).toNat * d.bps ∨ (sectorIndex s.wd d).toNat * d.bps + d.bps ≤ k →
          p.getD k 0 = d.payload.getD k 0

/-- WRITE SECTOR multiple writes as many sectors as the count holds, each from the RAM bytes of its turn, and a sector
met twice keeps the later bytes; the other bytes of the image and memory do not change. On the first sector the image does
not hold it fails with the status 0x10: the `n` sectors written before it stay written, and the count, the sector register
and the DMA address are as they left them (43_wd1772_dma.md R318, R321). -/
def Obligations.WriteSectorMultipleReplacesTheCount : Prop :=
  ∀ (s : State) (fl : BitVec 4) (d : Floppy) (n : Nat), s.wd.drive = .driveA → s.disk = some d →
    d.writeProtected = false → n ≤ s.wd.dmaCount.toNat →
    (∀ i, i < n → ¬ overruns { s.wd with sector := sectorAfter d.spt s.wd.sector i } d) →
    n = s.wd.dmaCount.toNat ∨ overruns { s.wd with sector := sectorAfter d.spt s.wd.sector n } d →
    ∃ p : List Byte, exec (.fdcWriteSectorMulti fl) s = .next { withIrq (fdcPulse s.params s.mfp) s with
        disk := some { d with payload := p }
        wd := { s.wd with
          command := 0xB#4 ++ fl, multi := false, dmaCount := s.wd.dmaCount - BitVec.ofNat 8 n
          status := if n = s.wd.dmaCount.toNat then 0x00 else 0x10
          dmaError := if n = s.wd.dmaCount.toNat then s.wd.dmaError else true
          sector := sectorAfter d.spt s.wd.sector n
          dmaAddr := s.wd.dmaAddr + BitVec.ofNat 24 (n * d.bps) } }
      ∧ p.length = d.payload.length
      ∧ (∀ i j, i < n → j < d.bps →
          (∀ i', i < i' → i' < n → sectorAfter d.spt s.wd.sector i' ≠ sectorAfter d.spt s.wd.sector i) →
          p.getD ((sectorIndex { s.wd with sector := sectorAfter d.spt s.wd.sector i } d).toNat * d.bps + j) 0
            = ramRead s (s.wd.dmaAddr + BitVec.ofNat 24 (i * d.bps + j)))
      ∧ ∀ k, (∀ i j, i < n → j < d.bps →
            k ≠ (sectorIndex { s.wd with sector := sectorAfter d.spt s.wd.sector i } d).toNat * d.bps + j) →
          p.getD k 0 = d.payload.getD k 0

/-- READ ADDRESS puts the six bytes {track, side, sector, 2, 0, 0} into RAM from the DMA address on, and nothing else of
memory; the count stays (43_wd1772_dma.md R309, R323). -/
def Obligations.ReadAddressPutsTheIdField : Prop :=
  ∀ (s : State) (fl : BitVec 4) (d : Floppy), MemOk s → s.wd.drive = .driveA → s.disk = some d →
    ∃ t : State, exec (.fdcReadAddress fl) s = .next t
      ∧ t = { withIrq (fdcPulse s.params s.mfp) s with
          mem := t.mem
          wd := { s.wd with
            command := 0xC#4 ++ fl, status := 0x00, multi := false, dmaAddr := s.wd.dmaAddr + 6 } }
      ∧ SameBytesBut (dmaTarget s.params s.wd.dmaAddr 6) s t
      ∧ ∀ j, j < 6 → (s.wd.dmaAddr + BitVec.ofNat 24 j).toNat < ramBytes s.params →
          storedByte t (s.wd.dmaAddr + BitVec.ofNat 24 j).toNat
            = [BitVec.ofNat 8 s.wd.head, s.wd.side.setWidth 8, s.wd.sector, 2, 0, 0].getD j 0

/-- FORCE INTERRUPT raises the FDC line and leaves it high: the status keeps its bits but BUSY, and no completion is
signalled (43_wd1772_dma.md R326). READ TRACK and WRITE TRACK stop under `refuse`; under `havoc` they complete, and only
the status, the DMA address, count and error, and RAM (READ TRACK) or the image's bytes at the head and side (WRITE TRACK)
become draws (43_wd1772_dma.md R324, R325; that the drawn
status stays whole, and the counters of the draws, are the model's: log 4, 7, 31). -/
def Obligations.ForceInterruptAndTrackCommands : Prop :=
  ∀ (s : State) (fl : BitVec 4),
    exec (.fdcForceInterrupt fl) s = .next { withIrq (fdcLine s.params true s.mfp) s with
      wd := { s.wd with command := 0xD#4 ++ fl, status := s.wd.status &&& 0xFE#8, multi := false } }
    ∧ (s.params.trackCmds = .refuse → exec (.fdcReadTrack fl) s = .refused .fdcTrackCommand
        ∧ exec (.fdcWriteTrack fl) s = .refused .fdcTrackCommand)
    ∧ (s.params.trackCmds = .havoc →
      (∃ t : State, exec (.fdcReadTrack fl) s = .next t
        ∧ t = { withIrq (fdcPulse s.params s.mfp) s with
            mem := t.mem, ramGen := s.ramGen + 1, draws := s.draws + 4
            wd := { s.wd with
              command := 0xE#4 ++ fl, multi := false, status := t.wd.status, dmaAddr := t.wd.dmaAddr
              dmaCount := t.wd.dmaCount, dmaError := t.wd.dmaError } }
        ∧ (MemOk s → MemOk t ∧ SameBytesBut (fun k => k < tosBase s.params) s t))
      ∧ ∃ t : State, exec (.fdcWriteTrack fl) s = .next t
        ∧ t = { withIrq (fdcPulse s.params s.mfp) s with
            disk := t.disk, draws := t.draws
            wd := { s.wd with
              command := 0xF#4 ++ fl, multi := false, status := t.wd.status, dmaAddr := t.wd.dmaAddr
              dmaCount := t.wd.dmaCount, dmaError := t.wd.dmaError } }
        ∧ (s.disk = none → t.disk = none)
        ∧ ∀ d : Floppy, s.disk = some d →
            ∃ p : List Byte, t.disk = some { d with payload := p } ∧ p.length = d.payload.length
              ∧ ∀ k, k < (s.wd.head * d.sides + s.wd.side.toNat) * d.spt * d.bps
                  ∨ (s.wd.head * d.sides + s.wd.side.toNat) * d.spt * d.bps + d.spt * d.bps ≤ k →
                p.getD k 0 = d.payload.getD k 0)

/-! YM2149 registers. -/

/-- The YM2149's accesses and register writes (42_ym2149.md R250..R256; 30_encoding.md R147): a register write stores the
byte, register 13 restarts the envelope, register 14 selects the drive and the side, and nothing else moves. Covers
YM_SELECT_WR8, YM_DATA_RD8, YM_DATA_WR8, YM_FF8802_RD8 and the sixteen register writes. -/
def Obligations.YmRegisterAccesses : Prop :=
  ∀ (s : State) (v : Byte),
    exec (.ymSelectWr8 v) s = .next { s with ym := { s.ym with sel := v.extractLsb' 0 4 } }
    ∧ exec .ymDataRd8 s = .next { s with bus := (ymReg s.ym s.ym.sel).setWidth 32 }
    ∧ exec .ymFf8802Rd8 s = .next { s with bus := 0xFF }
    ∧ exec (.ymDataWr8 v) s = .next (ymWritten s.ym.sel v s)
    ∧ ∀ p ∈ [(Instr.ymToneAFine v, 0#4), (Instr.ymToneACoarse v, 1#4), (Instr.ymToneBFine v, 2#4),
        (Instr.ymToneBCoarse v, 3#4), (Instr.ymToneCFine v, 4#4), (Instr.ymToneCCoarse v, 5#4),
        (Instr.ymNoisePeriod v, 6#4), (Instr.ymMixerEnable v, 7#4), (Instr.ymLevelA v, 8#4),
        (Instr.ymLevelB v, 9#4), (Instr.ymLevelC v, 10#4), (Instr.ymEnvPeriodFine v, 11#4),
        (Instr.ymEnvPeriodCoarse v, 12#4), (Instr.ymEnvShape v, 13#4), (Instr.ymPortA v, 14#4),
        (Instr.ymPortB v, 15#4)],
      exec p.1 s = .next (ymWritten p.2 v { s with ym := { s.ym with sel := p.2 } })

/-! MFP registers. -/

/-- The MFP registers with no effect on the request (41_mfp68901.md R201..R204, R216): GPIP, AER, DDR, TACR, TBCR and
TCDCR, read and written. A GPIP write moves output lines only, and a control write keeps every counter and phase. -/
def Obligations.MfpPlainRegisters : Prop :=
  ∀ (s : State) (v : Byte),
    (∀ p ∈ [(Instr.mfpGpipRd8, s.mfp.gpip), (Instr.mfpAerRd8, s.mfp.aer), (Instr.mfpDdrRd8, s.mfp.ddr),
        (Instr.mfpTacrRd8, s.mfp.tacr), (Instr.mfpTbcrRd8, s.mfp.tbcr), (Instr.mfpTcdcrRd8, s.mfp.tcdcr)],
      exec p.1 s = .next { s with bus := p.2.setWidth 32 })
    ∧ ∀ p ∈ [(Instr.mfpGpipWr8 v, { s.mfp with gpip := (s.mfp.gpip &&& ~~~ s.mfp.ddr) ||| (v &&& s.mfp.ddr) }),
        (Instr.mfpAerWr8 v, { s.mfp with aer := v }), (Instr.mfpDdrWr8 v, { s.mfp with ddr := v }),
        (Instr.mfpTacrWr8 v, { s.mfp with tacr := v }), (Instr.mfpTbcrWr8 v, { s.mfp with tbcr := v }),
        (Instr.mfpTcdcrWr8 v, { s.mfp with tcdcr := v })],
      exec p.1 s = .next { s with mfp := p.2 }

/-- The MFP registers that form the request (41_mfp68901.md R205..R213): IERx, IPRx, ISRx, IMRx and VR, read and written.
Each write is followed by `UpdateIRQ()`; IPRx and ISRx only lose bits, and an IERx write drops the pending bits it
disables under the gating. -/
def Obligations.MfpInterruptRegisters : Prop :=
  ∀ (s : State) (v : Byte),
    (∀ p ∈ [(Instr.mfpIeraRd8, s.mfp.iera), (Instr.mfpIerbRd8, s.mfp.ierb), (Instr.mfpIpraRd8, s.mfp.ipra),
        (Instr.mfpIprbRd8, s.mfp.iprb), (Instr.mfpIsraRd8, s.mfp.isra), (Instr.mfpIsrbRd8, s.mfp.isrb),
        (Instr.mfpImraRd8, s.mfp.imra), (Instr.mfpImrbRd8, s.mfp.imrb), (Instr.mfpVrRd8, s.mfp.vr)],
      exec p.1 s = .next { s with bus := p.2.setWidth 32 })
    ∧ ∀ p ∈ [(Instr.mfpIeraWr8 v, { s.mfp with
            iera := v, ipra := if s.params.mfpIprGatedByIer then s.mfp.ipra &&& v else s.mfp.ipra }),
        (Instr.mfpIerbWr8 v, { s.mfp with
            ierb := v, iprb := if s.params.mfpIprGatedByIer then s.mfp.iprb &&& v else s.mfp.iprb }),
        (Instr.mfpIpraWr8 v, { s.mfp with ipra := s.mfp.ipra &&& v }),
        (Instr.mfpIprbWr8 v, { s.mfp with iprb := s.mfp.iprb &&& v }),
        (Instr.mfpIsraWr8 v, { s.mfp with isra := s.mfp.isra &&& v }),
        (Instr.mfpIsrbWr8 v, { s.mfp with isrb := s.mfp.isrb &&& v }),
        (Instr.mfpImraWr8 v, { s.mfp with imra := v }), (Instr.mfpImrbWr8 v, { s.mfp with imrb := v }),
        (Instr.mfpVrWr8 v, { s.mfp with
            vr := v, isra := if v.getLsbD 3 then s.mfp.isra else 0, isrb := if v.getLsbD 3 then s.mfp.isrb else 0 })],
      exec p.1 s = .next (withIrq p.2 s)

/-- The timer data registers (41_mfp68901.md R214, R215, R221): a read gives the main counter, 256 as 0x00; a write loads
the counter only of a timer that is not counting, 0 as 256, and never its phase. -/
def Obligations.MfpTimerDataRegisters : Prop :=
  ∀ (s : State) (v : Byte) (load : Counter → Counter),
    (∀ c, load c = { c with cnt := if v = 0 then 256 else v.toNat }) →
    (∀ p ∈ [(Instr.mfpTadrRd8, s.mfp.timerA.cnt), (Instr.mfpTbdrRd8, s.mfp.timerB.cnt),
        (Instr.mfpTcdrRd8, s.mfp.timerC.cnt), (Instr.mfpTddrRd8, s.mfp.timerD.cnt)],
      exec p.1 s = .next { s with bus := (BitVec.ofNat 8 p.2).setWidth 32 })
    ∧ ∀ p ∈ [(Instr.mfpTadrWr8 v, { s.mfp with
            tadr := v
            timerA := if 1 ≤ (s.mfp.tacr &&& 0x0F#8).toNat ∧ (s.mfp.tacr &&& 0x0F#8).toNat ≤ 8
              then s.mfp.timerA else load s.mfp.timerA }),
        (Instr.mfpTbdrWr8 v, { s.mfp with
            tbdr := v
            timerB := if 1 ≤ (s.mfp.tbcr &&& 0x0F#8).toNat ∧ (s.mfp.tbcr &&& 0x0F#8).toNat ≤ 8
              then s.mfp.timerB else load s.mfp.timerB }),
        (Instr.mfpTcdrWr8 v, { s.mfp with
            tcdr := v
            timerC := if 1 ≤ (s.mfp.tcdcr >>> 4).toNat ∧ (s.mfp.tcdcr >>> 4).toNat ≤ 7
              then s.mfp.timerC else load s.mfp.timerC }),
        (Instr.mfpTddrWr8 v, { s.mfp with
            tddr := v
            timerD := if 1 ≤ (s.mfp.tcdcr &&& 0x0F#8).toNat ∧ (s.mfp.tcdcr &&& 0x0F#8).toNat ≤ 7
              then s.mfp.timerD else load s.mfp.timerD })],
      exec p.1 s = .next { s with mfp := p.2 }

/-! ACIA and IKBD. -/

/-- The ACIA's accesses (44_acia_ikbd.md R360..R363, R370): a control write with both low bits set is a master reset, a
data read empties the latch and raises GPIP4, and a data write goes to the IKBD's parser, which drops a first byte
outside `IKBD_CMD_LEN`, collects the bytes of a command, and with its last byte, where the length is the table's row's,
does what the row does. That a row is an operation with a frame of its own, and is the completion of its command, are
the model's choices (log 1, log 26). Covers ACIA_STATUS_RD8, ACIA_CONTROL_WR8, ACIA_DATA_RD8 and ACIA_DATA_WR8. -/
def Obligations.AciaRegisterAccesses : Prop :=
  ∀ (s : State) (v f : Byte) (ps : List Byte),
    exec .aciaStatusRd8 s = .next { s with bus := s.acia.status.setWidth 32 }
    ∧ (v &&& 0x03#8 ≠ 0x03#8 → exec (.aciaControlWr8 v) s = .next { s with acia := { s.acia with control := v } })
    ∧ (v &&& 0x03#8 = 0x03#8 → exec (.aciaControlWr8 v) s = .next { withIrq (aciaLine s.params true s.mfp) s with
        acia := { s.acia with control := v, latch := 0x00, hasLatched := false, status := 0x02, wait := 0 } })
    ∧ exec .aciaDataRd8 s = .next { withIrq (aciaLine s.params true s.mfp) s with
        acia := { s.acia with hasLatched := false, status := s.acia.status &&& 0x4E#8 }
        bus := s.acia.latch.setWidth 32 }
    ∧ (s.ikbd.cmd ++ [v] = f :: ps →
      (ikbdLenOf s.params f = none → exec (.aciaDataWr8 v) s = .next { s with ikbd := { s.ikbd with cmd := [] } })
      ∧ (∀ n, ikbdLenOf s.params f = some n → (f :: ps).length ≠ n →
        exec (.aciaDataWr8 v) s = .next { s with ikbd := { s.ikbd with cmd := f :: ps } })
      ∧ (∀ n, ikbdLenOf s.params f = some n → ikbdLen f = some n → (f :: ps).length = n →
        ∃ i, decode (f :: 0x02 :: 0x00 :: ps) = .ok (i, [])
          ∧ ∃ t, exec i s = .next t ∧ exec (.aciaDataWr8 v) s = .next t))

/-- An IKBD command written to the ACIA data register byte by byte, the parser's buffer empty before and its first byte's
length the table's row's, does what the command's row does (44_acia_ikbd.md R363, R370; 30_encoding.md R145). The row as
the completion of the command is the model's choice (log 26). -/
def Obligations.IkbdCommandsRunWhenWritten : Prop :=
  ∀ (s : State) (i : Instr) (c : Byte) (ps : List Byte), i.wellFormed = true → encode i = c :: 0x02 :: 0x00 :: ps →
    s.ikbd.cmd = [] → ikbdLenOf s.params c = ikbdLen c → writeAcia (c :: ps) s = exec i s

/-- The effects of the IKBD commands (44_acia_ikbd.md R371..R377): the mouse and joystick enables, the bytes a response
queues, and nothing for the rest, an unknown first byte among them (R370; 30_encoding.md R145). That a row run as an
operation of its own is the completion of its command, and so leaves the parser's buffer empty whatever it held, is the
model's choice (log 26). Covers every IKBD row of the table. -/
def Obligations.IkbdCommandEffects : Prop :=
  ∀ (s : State) (p1 p2 p3 p4 p5 p6 : Byte) (after : Bool → Bool → List Byte → State),
    (∀ m j q, after m j q = { s with
      ikbd := { s.ikbd with cmd := [], mouseOn := m, joyOn := j }, acia := { s.acia with queue := q } }) →
    exec .setRelativeMouse s = .next (after true s.ikbd.joyOn s.acia.queue)
    ∧ (∀ i ∈ [Instr.setAbsoluteMouse p1 p2 p3 p4, Instr.setMouseKeycodeMode p1 p2, Instr.disableMouse],
      exec i s = .next (after false s.ikbd.joyOn s.acia.queue))
    ∧ (∀ i ∈ [Instr.setJoystickInterrogationMode, Instr.disableJoysticks],
      exec i s = .next (after s.ikbd.mouseOn false s.acia.queue))
    ∧ exec .setJoystickEventReporting s
        = .next (after s.ikbd.mouseOn true (s.acia.queue ++ [0xFF, s.ikbd.joy]))
    ∧ exec .joystickInterrogate s
        = .next (after s.ikbd.mouseOn s.ikbd.joyOn (s.acia.queue ++ [0xFD, 0x00, s.ikbd.joy]))
    ∧ exec .interrogateTimeOfDayClock s
        = .next (after s.ikbd.mouseOn s.ikbd.joyOn (s.acia.queue ++ [0xFC, 0, 0, 0, 0, 0, 0]))
    ∧ exec (.ikbdReset p1) s = .next (if p1 = 0x01 then after true true [0xF0, 0xF1]
        else after s.ikbd.mouseOn s.ikbd.joyOn s.acia.queue)
    ∧ ∀ i ∈ [Instr.setMouseButtonAction p1, Instr.setMouseThreshold p1 p2, Instr.setMouseScale p1 p2,
        Instr.interrogateMousePosition, Instr.loadMousePosition p1 p2 p3 p4 p5, Instr.setYAtBottom, Instr.setYAtTop,
        Instr.resume, Instr.pauseOutput, Instr.setJoystickMonitoring p1, Instr.setFireButtonMonitoring,
        Instr.setJoystickKeycodeMode p1 p2 p3 p4 p5 p6, Instr.timeOfDayClockSet p1 p2 p3 p4 p5 p6,
        Instr.memoryLoad p1 p2 p3, Instr.memoryRead p1 p2, Instr.controllerExecute p1 p2, Instr.statusInquiry87,
        Instr.statusInquiry88, Instr.statusInquiry89, Instr.statusInquiry8A, Instr.statusInquiry8B,
        Instr.statusInquiry8C, Instr.statusInquiry8F, Instr.statusInquiry90, Instr.statusInquiry92,
        Instr.statusInquiry94, Instr.statusInquiry95, Instr.statusInquiry99, Instr.statusInquiry9A,
        Instr.unknownFirstByte p1],
      exec i s = .next (after s.ikbd.mouseOn s.ikbd.joyOn s.acia.queue)

/-! Plain storage and bus errors. -/

/-- A read of plain storage answers the stored bytes, big-endian, and changes nothing (20_memory.md R83, R85, R86, R89).
Covers every plain-storage row with every read; the rows with an address of their own are plain at every width. -/
def Obligations.PlainRegisterReads : Prop :=
  ∀ (s : State) (off : BitVec 5) (a : Addr) (w : Width),
    (∀ p ∈ plainRows off a (readAccess w), allPlain w p.2 = true →
      exec p.1 s = .next { s with bus := storedValue w s p.2.toNat })
    ∧ ∀ p ∈ plainRows off 0xFF8001 (readAccess w), allPlain w p.2 = true

/-- A write of plain storage stores the value's bytes, big-endian, and changes nothing else (20_memory.md R83, R89, R91).
Covers every plain-storage row with every write. -/
def Obligations.PlainRegisterWrites : Prop :=
  ∀ (s : State) (off : BitVec 5) (a : Addr) (w : Width) (v : Word), MemOk s →
    ∀ p ∈ plainRows off a (writeAccess w v), allPlain w p.2 = true →
      ∃ t : State, exec p.1 s = .next t ∧ t = { s with mem := t.mem } ∧ MemOk t
        ∧ SameBytesBut (fun k => p.2.toNat ≤ k ∧ k < p.2.toNat + widthBytes w) s t
        ∧ storedValue w t p.2.toNat = drawOfWidth w v

/-- With the bus-error vector at 8 zero, an access that touches a bus-error range is consumed: a read answers a free value
of its width, a write does nothing, and no register, mode or byte of memory changes (60_exceptions.md R452, R455;
20_memory.md R90). Covers the three bus-error rows. -/
def Obligations.BusErrorsAreSkippedWithoutAVector : Prop :=
  ∀ (s : State) (a f : Addr) (w : Width) (v : Word), longAt s 8 = 0 → firstBusError w a = some f →
    (∀ i ∈ berrRows a (readAccess w), exec i s = .next { s with
      draws := s.draws + 1, bus := drawOfWidth w (Config.freeWord s.draws) })
    ∧ ∀ i ∈ berrRows a (writeAccess w v), exec i s = .next s

/-- With a bus-error vector, an access that touches a bus-error range takes the group-0 exception: the 14-byte frame is
pushed on the supervisor stack, its PC an even address in pc+2..pc+10, S is set and T cleared, the PC is the vector, and
nothing else of the machine changes, but that the core then holds no prefetched word (log 36) (60_exceptions.md R452, R453, R454, R456; 20_memory.md R90). Covers the three bus-error rows. -/
def Obligations.BusErrorsPushTheGroupZeroFrame : Prop :=
  ∀ (s : State) (a f : Addr) (w : Width) (v : Word) (b : Addr), MemOk s → longAt s 8 ≠ 0 →
    firstBusError w a = some f → b = (s.cpu.regs.ssp - 14).setWidth 24 → s.cpu.regs.ssp.getLsbD 0 = false →
    inRam s.params b 14 →
    ∀ p ∈ (berrRows a (readAccess w)).map (fun i => (i, true)) ++ (berrRows a (writeAccess w v)).map (fun i => (i, false)),
      ∃ t : State, exec p.1 s = .next t
        ∧ t = { s with
            mem := t.mem, draws := s.draws + 2
            cpu := { s.cpu with
              berr := true, ahead := []
              regs := { s.cpu.regs with
                ssp := s.cpu.regs.ssp - 14, sr := supervisorSr s.cpu.regs.sr, pc := longAt s 8 } } }
        ∧ SameBytesBut (fun k => b.toNat ≤ k ∧ k < b.toNat + 14) s t
        ∧ wordAt t b.toNat &&& 0x001F#16
            = (if p.2 then 0x0018#16 else 0x0008#16) ||| (if srS s.cpu.regs.sr then 5#16 else 1#16)
        ∧ longAt t (b.toNat + 2) = f.setWidth 32
        ∧ wordAt t (b.toNat + 6) = s.cpu.ir ∧ wordAt t (b.toNat + 8) = s.cpu.regs.sr
        ∧ (longAt t (b.toNat + 10)).getLsbD 0 = false
        ∧ ∃ k, 2 ≤ k ∧ k ≤ 10 ∧ longAt t (b.toNat + 10) = s.cpu.ipc + BitVec.ofNat 32 k

/-- With a bus-error vector, a bus error or an address error whose frame meets an odd supervisor stack pointer, or another
bus-error range with any of its 14 bytes, halts the 68000 (60_exceptions.md R457). Covers the three bus-error rows, and a
word or long access of the core at an odd address. -/
def Obligations.SecondBusErrorsHalt : Prop :=
  ∀ (s : State) (w : Width) (v : Word), longAt s 8 ≠ 0 →
    (s.cpu.regs.ssp.getLsbD 0 = true
      ∨ ∃ k, k < 14 ∧ (firstBusError .byte ((s.cpu.regs.ssp - 14).setWidth 24 + BitVec.ofNat 24 k)).isSome) →
    (∀ a : Addr, (firstBusError w a).isSome →
      ∀ i ∈ berrRows a (readAccess w) ++ berrRows a (writeAccess w v), exec i s = .fault .cpuHalted)
    ∧ ∀ (a : Word) (prog : Bool), w ≠ .byte → a.getLsbD 0 = true →
      cpuRead w a prog s = .fault .cpuHalted ∧ cpuWrite w a v s = .fault .cpuHalted

/-! Interrupts. -/

/-- The acknowledge of a level but 6 (40_cpu_integration.md R182, R183, R185): the autovector goes to the bus, level 2
clears the HBL flag, level 4 the VBL flag, and the IPL follows. Covers IACK_L1, L2, L3, L4, L5 and L7. -/
def Obligations.AutovectorAcknowledges : Prop :=
  ∀ s : State,
    exec .iackL2 s = .next { s with
      arb := { s.arb with hbl := false }
      cpu := { s.cpu with ipl := if s.arb.mfp then 6 else if s.arb.vbl then 4 else 0 }
      bus := 26 }
    ∧ exec .iackL4 s = .next { s with
      arb := { s.arb with vbl := false }
      cpu := { s.cpu with ipl := if s.arb.mfp then 6 else if s.arb.hbl then 2 else 0 }
      bus := 28 }
    ∧ ∀ p ∈ [(Instr.iackL1, 25#32), (Instr.iackL3, 27#32), (Instr.iackL5, 29#32), (Instr.iackL7, 31#32)],
      exec p.1 s = .next { s with bus := p.2 }

/-- The acknowledge of level 6 (40_cpu_integration.md R184; 41_mfp68901.md R224, R227, R228): the highest active channel
above every channel in service wins: its pending bit clears, its in-service bit sets under software EOI, the vector
carries its number, and every other channel stays; with no winner the vector is 0x18 and the MFP does not change. -/
def Obligations.MfpAcknowledgeTakesTheHighestChannel : Prop :=
  ∀ s : State,
    ((∀ n, n < 16 → channelActive s.mfp n = true →
        ∃ h, h < 16 ∧ n ≤ h ∧ channelBit s.mfp.isra s.mfp.isrb h = true) →
      exec .iackL6 s = .next { withIrq s.mfp s with bus := 0x18 })
    ∧ ∀ w, w < 16 → channelActive s.mfp w = true →
      (∀ n, w < n → n < 16 → channelActive s.mfp n = false) →
      (∀ n, w ≤ n → n < 16 → channelBit s.mfp.isra s.mfp.isrb n = false) →
      ∃ m : Mfp, exec .iackL6 s = .next { withIrq m s with
          bus := ((s.mfp.vr &&& 0xF0#8) ||| BitVec.ofNat 8 w).setWidth 32 }
        ∧ m = { s.mfp with ipra := m.ipra, iprb := m.iprb, isra := m.isra, isrb := m.isrb }
        ∧ ∀ n, n < 16 →
          channelBit m.ipra m.iprb n = (channelBit s.mfp.ipra s.mfp.iprb n && n != w)
            ∧ channelBit m.isra m.isrb n = (channelBit s.mfp.isra s.mfp.isrb n || (s.mfp.vr.getLsbD 3 && n == w))

/-- The MFP requests exactly when some channel is active, and then, with the lines in agreement, the IPL is 6
(41_mfp68901.md R224, R225, R226; 40_cpu_integration.md R181). -/
def Obligations.ActiveChannelsDriveLevelSix : Prop :=
  (∀ m : Mfp, mfpRequest m = true ↔ ∃ n, n < 16 ∧ channelActive m n = true)
    ∧ ∀ s : State, IrqOk s → ((∃ n, n < 16 ∧ channelActive s.mfp n = true) ↔ s.cpu.ipl = 6)

/-- TAKING AN INTERRUPT at a boundary that accepts one (40_cpu_integration.md R179; 60_exceptions.md R460): the acknowledge
of the level happens, SR and PC are saved on the supervisor stack, S is set, T cleared and the mask raised to the level,
and the PC is the vector's long. The core then holds no prefetched word (log 36), and what a group-0 frame would save as
IR and PC is free until the next instruction begins (log 12). -/
def Obligations.AcceptedInterruptsAreTaken : Prop :=
  ∀ (s u : State) (b : Addr), MemOk s → (srMask s.cpu.regs.sr < s.cpu.ipl ∨ s.cpu.ipl = 7) →
    u = acknowledge s.cpu.ipl s → b = (s.cpu.regs.ssp - 6).setWidth 24 → s.cpu.regs.ssp.getLsbD 0 = false →
    inRam s.params b 6 →
    ∃ t : State, coreStep s = .next t
      ∧ t = { s with
          mem := t.mem, mfp := u.mfp, arb := u.arb, draws := s.draws + 2
          cpu := { s.cpu with
            ipl := u.cpu.ipl, stopped := false, berr := false, ahead := [], ir := t.cpu.ir, ipc := t.cpu.ipc
            regs := { s.cpu.regs with
              ssp := s.cpu.regs.ssp - 6
              sr := (supervisorSr s.cpu.regs.sr &&& 0xF8FF#16) ||| (s.cpu.ipl.setWidth 16 <<< 8)
              pc := peekLong t (BitVec.ofNat 24 (4 * u.bus.toNat)) } } }
      ∧ SameBytesBut (fun k => b.toNat ≤ k ∧ k < b.toNat + 6) s t
      ∧ wordAt t b.toNat = s.cpu.regs.sr ∧ longAt t (b.toNat + 2) = s.cpu.regs.pc

/-! The core's own exceptions. -/

/-- ILLEGAL, the two emulator lines, and a privileged instruction in user mode take their short-frame exception: the
pushed PC is the instruction's own address, S is set and T cleared, and the PC is the vector's long (60_exceptions.md
R459, R466). The instruction word lies in RAM, the core holds no older word for it (log 36), and no interrupt is
accepted. -/
def Obligations.ShortFrameExceptionsAreTaken : Prop :=
  ∀ (s : State) (n : Nat) (op : Half) (b : Addr), MemOk s → interruptAccepted s.cpu = false → s.cpu.stopped = false →
    s.cpu.regs.pc.getLsbD 0 = false → inRam s.params (s.cpu.regs.pc.setWidth 24) 2 →
    op = wordAt s (s.cpu.regs.pc.setWidth 24).toNat → (∀ e ∈ s.cpu.ahead, e.1 ≠ s.cpu.regs.pc.setWidth 24) →
    ((n = 4 ∧ op = 0x4AFC) ∨ (n = 10 ∧ op &&& 0xF000#16 = 0xA000#16) ∨ (n = 11 ∧ op &&& 0xF000#16 = 0xF000#16)
      ∨ (n = 8 ∧ srS s.cpu.regs.sr = false ∧ (op = 0x4E72 ∨ op = 0x4E73))) →
    b = (s.cpu.regs.ssp - 6).setWidth 24 → s.cpu.regs.ssp.getLsbD 0 = false → inRam s.params b 6 →
    ∃ t : State, coreStep s = .next t
      ∧ t = { s with
          mem := t.mem, draws := s.draws + 1, bus := op.setWidth 32
          cpu := { s.cpu with
            berr := false, ahead := [], ir := op, ipc := s.cpu.regs.pc
            regs := { s.cpu.regs with
              ssp := s.cpu.regs.ssp - 6, sr := supervisorSr s.cpu.regs.sr, pc := longAt t (4 * n) } } }
      ∧ SameBytesBut (fun k => b.toNat ≤ k ∧ k < b.toNat + 6) s t
      ∧ wordAt t b.toNat = s.cpu.regs.sr ∧ longAt t (b.toNat + 2) = s.cpu.regs.pc

/-- RTE in supervisor mode, untraced, takes SR and PC from the short frame and drops it; no device and no byte of memory
changes (60_exceptions.md R463; 10_state.md R34). STOP in supervisor mode loads SR and stops the core (R467). The core
holds no older word for the words fetched, and afterwards, of those it held, the ones of the next two fetches (log 36).
That STOP loads a clear bit 13 too is the model's reading (log 40), and that the pc then stands after it. -/
def Obligations.RteRestoresAndStopStops : Prop :=
  ∀ (s : State) (pc : Addr), interruptAccepted s.cpu = false → s.cpu.stopped = false → srS s.cpu.regs.sr = true →
    srT s.cpu.regs.sr = false → s.cpu.regs.pc.getLsbD 0 = false → pc = s.cpu.regs.pc.setWidth 24 →
    (∀ e ∈ s.cpu.ahead, e.1 ≠ pc ∧ e.1 ≠ pc + 2) →
    (∀ b : Addr, inRam s.params pc 2 → wordAt s pc.toNat = 0x4E73 → b = s.cpu.regs.ssp.setWidth 24 →
      s.cpu.regs.ssp.getLsbD 0 = false → inRam s.params b 6 →
      coreStep s = .next { s with
        draws := s.draws + 1, bus := longAt s (b.toNat + 2)
        cpu := { s.cpu with
          berr := false, ir := 0x4E73, ipc := s.cpu.regs.pc
          ahead := s.cpu.ahead.filter fun e => e.1 = (longAt s (b.toNat + 2)).setWidth 24
            ∨ e.1 = (longAt s (b.toNat + 2)).setWidth 24 + 2
          regs := { s.cpu.regs with
            ssp := s.cpu.regs.ssp + 6, sr := wordAt s b.toNat &&& 0xA71F#16, pc := longAt s (b.toNat + 2) } } })
    ∧ (inRam s.params pc 4 → wordAt s pc.toNat = 0x4E72 →
      coreStep s = .next { s with
        draws := s.draws + 1, bus := (wordAt s (pc.toNat + 2)).setWidth 32
        cpu := { s.cpu with
          berr := false, ir := 0x4E72, ipc := s.cpu.regs.pc, stopped := true
          ahead := s.cpu.ahead.filter fun e => e.1 = pc + 4 ∨ e.1 = pc + 6
          regs := { s.cpu.regs with
            pc := s.cpu.regs.pc + 4, sr := wordAt s (pc.toNat + 2) &&& 0xA71F#16 } } })

/-! Timers, video, sound and the frame loop. -/

/-- A delay-mode tick (41_mfp68901.md R218, R220, R226): the prescaler phase keeps the remainder, the counter loses the
decrements and is reloaded as often as it takes to be positive again and no more, and the timer's channel is raised
exactly if it was reloaded (with `UpdateIRQ()` after a lost request too: log 23); a timer in another mode keeps its
counter and its phase (R221). -/
def Obligations.DelayTicksCountDown : Prop :=
  ∀ (s : State) (x : Timer) (ticks : Nat), CounterOk (timerCounter s.mfp x) →
    (delayDivisor (timerMode s.mfp x) = none → tickDelay x ticks s = s)
    ∧ ∀ div, delayDivisor (timerMode s.mfp x) = some div →
      ∃ c k : Nat, 1 ≤ c ∧ c + ((timerCounter s.mfp x).phase + ticks) / div
          = (timerCounter s.mfp x).cnt + k * reload (timerData s.mfp x)
        ∧ (k = 0 ∨ c ≤ reload (timerData s.mfp x))
        ∧ tickDelay x ticks s =
          if k = 0 then
            { s with mfp := setTimerCounter s.mfp x { cnt := c, phase := ((timerCounter s.mfp x).phase + ticks) % div } }
          else withIrq (raised s.params (timerChannel x)
            (setTimerCounter s.mfp x { cnt := c, phase := ((timerCounter s.mfp x).phase + ticks) % div })) s

/-- The event-count ticks of a visible line (41_mfp68901.md R219; 46_frame_loop.md R432): in mode 8 timer A or B counts one
down, and at its last count is reloaded and raises its channel (`UpdateIRQ()` after a lost request too: log 23); in any
other mode nothing happens. -/
def Obligations.EventTicksCountLines : Prop :=
  ∀ (s : State) (x : Timer), CounterOk (timerCounter s.mfp x) → x = .a ∨ x = .b →
    tickEvent x s =
      if timerMode s.mfp x = 8 then
        if (timerCounter s.mfp x).cnt = 1 then
          withIrq (raised s.params (timerChannel x) (setTimerCounter s.mfp x
            { timerCounter s.mfp x with cnt := reload (timerData s.mfp x) })) s
        else { s with mfp := (setTimerCounter s.mfp x
            { timerCounter s.mfp x with cnt := (timerCounter s.mfp x).cnt - 1 }) }
      else s

/-- The ACIA's receive pacing (44_acia_ikbd.md R365): with a byte latched nothing moves; with an empty queue the wait is
cleared; otherwise the wait runs down, and when it is over exactly one byte is latched, RDRF and IRQ are set, GPIP4 falls
and the wait is a byte's time again. -/
def Obligations.AciaSyncLatchesOneByte : Prop :=
  ∀ (s : State) (n : Nat),
    (s.acia.hasLatched = true → aciaSync n s = s)
    ∧ (s.acia.hasLatched = false → s.acia.queue = [] → aciaSync n s = { s with acia := { s.acia with wait := 0 } })
    ∧ ∀ b q, s.acia.hasLatched = false → s.acia.queue = b :: q →
      (0 < s.acia.wait - n → aciaSync n s = { s with acia := { s.acia with wait := s.acia.wait - n } })
      ∧ (s.acia.wait - n ≤ 0 → aciaSync n s = { withIrq (aciaLine s.params false s.mfp) s with
          acia := { s.acia with
            latch := b, hasLatched := true, queue := q, status := s.acia.status ||| 0x81#8, wait := 10240 } })

/-- A visible line (45_video_shifter.md R410, R411, R412, R414): in resolutions 0 and 1 exactly one row of the framebuffer
is written, and nothing else changes. A pixel is the colour of the palette word at 0xFF8240 + 2i, where bit j of the index
i is bit 15 - x of the group's plane word j, read at the counter; resolution 0 has 20 groups of 4 planes and doubles each
pixel, resolution 1 has 40 groups of 2. In resolutions 2 and 3 the shifter faults. -/
def Obligations.LinesAreDecodedFromThePlanes : Prop :=
  ∀ (s : State) (vc : Addr) (row : Nat) (res : Byte), res = storedByte s 0xFF8260 &&& 0x03#8 →
    (res = 2 ∨ res = 3 → blitLine vc row s = .fault .videoHighRes)
    ∧ (res = 0 ∨ res = 1 → ∃ ws : List Word,
      blitLine vc row s = .next { s with video := { s.video with fb := s.video.fb.set row ws } }
        ∧ ws.length = 640
        ∧ ∀ g x : Nat, x < 16 →
          (res = 0 → g < 20 → ∃ i, i < 16
            ∧ (∀ j, j < 4 → i.testBit j = (peek16 s (vc + BitVec.ofNat 24 (2 * (g * 4 + j)))).getLsbD (15 - x))
            ∧ ∀ e, e < 2 → ws.getD (32 * g + 2 * x + e) 0
                = paletteColour s.params.paletteLayout (wordAt s (0xFF8240 + 2 * i)))
          ∧ (res = 1 → g < 40 → ∃ i, i < 4
            ∧ (∀ j, j < 2 → i.testBit j = (peek16 s (vc + BitVec.ofNat 24 (2 * (g * 2 + j)))).getLsbD (15 - x))
            ∧ ws.getD (16 * g + x) 0 = paletteColour s.params.paletteLayout (wordAt s (0xFF8240 + 2 * i))))

/-- The colours of the palette (45_video_shifter.md R412, R413): each component's 3 bits are spread over 8; for every
word, red, green and blue are the layout's fields, in bits 23..16, 15..8 and 7..0 under an opaque alpha; the 16 colours
are those of the words at 0xFF8240 + 2i; and the rules' worked values. -/
def Obligations.PaletteWordsExpand : Prop :=
  (∀ c : BitVec 3, expand8 c = (c.setWidth 8 <<< 5) ||| (c.setWidth 8 <<< 2) ||| (c.setWidth 8 >>> 1))
    ∧ (List.range 8).map (fun c => expand8 (BitVec.ofNat 3 c)) = [0x00, 0x24, 0x49, 0x6D, 0x92, 0xB6, 0xDB, 0xFF]
    ∧ (∀ (w : Half) (colour : Half → Half → Half → Word),
      (∀ r g b, colour r g b = 0xFF000000#32 ||| ((expand8 ((r &&& 7#16).setWidth 3)).setWidth 32 <<< 16)
        ||| ((expand8 ((g &&& 7#16).setWidth 3)).setWidth 32 <<< 8) ||| (expand8 ((b &&& 7#16).setWidth 3)).setWidth 32) →
      paletteColour .nibble w = colour (w >>> 8) (w >>> 4) w ∧ paletteColour .packed w = colour (w >>> 6) (w >>> 3) w)
    ∧ (∀ s : State, videoPalette s
        = (List.range 16).map fun i => paletteColour s.params.paletteLayout (wordAt s (0xFF8240 + 2 * i)))
    ∧ paletteColour .nibble 0x0700 = 0xFFFF0000 ∧ paletteColour .nibble 0x0421 = 0xFF924924
    ∧ paletteColour .packed 0x0421 = 0xFF009224 ∧ paletteColour .nibble 0x0777 = 0xFFFFFFFF
    ∧ ∀ w : Half, paletteColour .nibble w = paletteColour .nibble (w &&& 0x0777#16)
        ∧ paletteColour .packed w = paletteColour .packed (w &&& 0x01FF#16)

/-- The generators of the YM2149 (42_ym2149.md R260..R263): the noise generator's shift register, its step for every value,
that it never reaches 0 from another value, and the fifteen states the rule lists from 1 on with their noise bits; the
noise generator's tick, by its counter and period; the tone generators, for which a period of 0 is the same as 1; and the
envelope generator's tick, by its counter, its period and the place its position loops to. -/
def Obligations.NoiseAndToneGenerators : Prop :=
  (∀ r : BitVec 17, (r.getLsbD 0 = true → lfsrStep r = ((r >>> 1) ^^^ 0x12000#17, true))
      ∧ (r.getLsbD 0 = false → lfsrStep r = (r >>> 1, false))
      ∧ (r ≠ 0 → (lfsrStep r).1 ≠ 0))
    ∧ (∀ p ∈ [(0x00001#17, 0x12000#17, true), (0x12000, 0x09000, false), (0x09000, 0x04800, false),
        (0x04800, 0x02400, false), (0x02400, 0x01200, false), (0x01200, 0x00900, false), (0x00900, 0x00480, false),
        (0x00480, 0x00240, false), (0x00240, 0x00120, false), (0x00120, 0x00090, false), (0x00090, 0x00048, false),
        (0x00048, 0x00024, false), (0x00024, 0x00012, false), (0x00012, 0x00009, false), (0x00009, 0x12004, true)],
      lfsrStep p.1 = p.2)
    ∧ (∀ y : Ym, tickNoise y =
        if y.ncnt + 1 ≥ 2 * max 1 (y.reg[6].toNat % 32)
        then { y with ncnt := 0, rng := (lfsrStep y.rng).1, noise := (lfsrStep y.rng).2 }
        else { y with ncnt := y.ncnt + 1 })
    ∧ (∀ (p : Config.Params) (y : Ym), tickEnv p y =
        if y.envCnt - 1 ≤ 0
        then { y with
          envCnt := max 1 ((y.reg[12].toNat * 256 + y.reg[11].toNat : Nat) : Int)
          envPos := if y.envPos + 1 ≠ 96 then y.envPos + 1 else if p.envLoop = .from32 then 32 else 64 }
        else { y with envCnt := y.envCnt - 1 })
    ∧ (∀ t : Tone, tickTone 0 t = tickTone 1 t)
    ∧ ∀ (per : Nat) (t : Tone), tickTone per t =
        if t.cnt + 1 ≥ max 1 per then { cnt := 0, sq := !t.sq } else { t with cnt := t.cnt + 1 }

/-- One frame runs its actions in the order of the rule, each with its effect (46_frame_loop.md R430..R437, R440): with
`running` set, the latch of the video base into the counter; the batches of 448 and 64 cycles, each followed by the YM's
and the timers' updates for as many; the HBL; the ACIA's update for 512; on lines 63..262 the write-back of the counter,
the line's row, the counter's advance by 160 and the event-count ticks of timers A and B; after line 312 the VBL, the
pump of the host's steps with `frame_complete`, and the pacing step. After a shutdown the loop has ended, and stays so:
the action `ended`, and the test of `running` as part of the latch's step, are the model's choices (log 18). -/
def Obligations.FrameActionsRunInOrder : Prop :=
  ∀ (s t : State) (act : State → Act → State) (lineEnd : State → State), emulatorStep s = .next t →
    (∀ u a, act u a = { u with loop := { u.loop with act := a } }) →
    (∀ u, lineEnd u = if s.loop.scanline < 312
      then { u with loop := { u.loop with act := .cpuMain, scanline := s.loop.scanline + 1 } } else act u .vbl) →
    (s.loop.act = .latch → s.loop.running = true → t = { s with
        video := { s.video with counter :=
          (storedByte s 0xFF8201).setWidth 24 <<< 16 ||| (storedByte s 0xFF8203).setWidth 24 <<< 8 }
        loop := { s.loop with act := .cpuMain, scanline := 0 } })
    ∧ (s.loop.act = .latch → s.loop.running = false → s.loop.request ≠ some .reset → t = act s .ended)
    ∧ (s.loop.act = .cpuMain → batchStep 448 .ymMain s = .next t
        ∧ (t.loop.act = .cpuMain ∨ t.loop.act = .ymMain) ∧ t.loop.scanline = s.loop.scanline)
    ∧ (s.loop.act = .ymMain → t = act (ymSync 448 s) .mfpMain)
    ∧ (s.loop.act = .mfpMain → t = act (updateTimers 448 s) .cpuTail)
    ∧ (s.loop.act = .cpuTail → batchStep 64 .ymTail s = .next t
        ∧ (t.loop.act = .cpuTail ∨ t.loop.act = .ymTail) ∧ t.loop.scanline = s.loop.scanline)
    ∧ (s.loop.act = .ymTail → t = act (ymSync 64 s) .mfpTail)
    ∧ (s.loop.act = .mfpTail → t = act (updateTimers 64 s) .hbl)
    ∧ (s.loop.act = .hbl → t = act { s with
        arb := { s.arb with hbl := true }
        cpu := { s.cpu with ipl := if s.arb.mfp then 6 else if s.arb.vbl then 4 else 2 } } .acia)
    ∧ (s.loop.act = .acia → t = if 63 ≤ s.loop.scanline ∧ s.loop.scanline < 263 then act (aciaSync 512 s) .writeBack
        else lineEnd (aciaSync 512 s))
    ∧ (s.loop.act = .writeBack → MemOk s → t = act { s with mem := t.mem } .render
        ∧ storedByte t 0xFF8205 = s.video.counter.extractLsb' 16 8
        ∧ storedByte t 0xFF8207 = s.video.counter.extractLsb' 8 8
        ∧ storedByte t 0xFF8209 = s.video.counter.extractLsb' 0 8
        ∧ SameBytesBut (fun k => k = 0xFF8205 ∨ k = 0xFF8207 ∨ k = 0xFF8209) s t)
    ∧ (s.loop.act = .render →
        ∃ u, blitLine s.video.counter (s.loop.scanline - 63) s = .next u ∧ t = act u .advance)
    ∧ (s.loop.act = .advance → t = act { s with video := { s.video with counter := s.video.counter + 160 } } .eventTicks)
    ∧ (s.loop.act = .eventTicks → t = lineEnd (tickEvent .b (tickEvent .a s)))
    ∧ (s.loop.act = .vbl → t = act { s with
        arb := { s.arb with vbl := true }, cpu := { s.cpu with ipl := if s.arb.mfp then 6 else 4 } } .complete)
    ∧ (s.loop.act = .complete → ∃ u, u = deliverAll s.host.inbox { s with host := { s.host with inbox := [] } }
        ∧ t = act { u with video := { u.video with frameComplete := u.video.frameComplete + 1 } } .pace)
    ∧ (s.loop.act = .pace → t = act s .latch)
    ∧ (s.loop.act = .ended → t = s)
end

