-- ==== Sys2Proof/Laws/Codec.lean ====
section
/-! SUPPORT. Laws/Codec.lean: the encoder and the decoder agree on the frame of a bus transaction, and which row a
transaction has. -/

namespace Sys2Proof

open Machine

theorem addr_bytes (a : Addr) : a.extractLsb' 16 8 ++ a.extractLsb' 8 8 ++ a.extractLsb' 0 8 = a := by
  apply BitVec.eq_of_getLsbD_eq
  intro i hi
  simp only [BitVec.getLsbD_append, BitVec.getLsbD_extractLsb']
  by_cases h1 : i < 8
  · simp [h1]
  · by_cases h2 : i - 8 < 8
    · have : 8 + (i - 8) = i := by omega
      simp [h1, h2, this]
    · have : 16 + (i - 8 - 8) = i := by omega
      have h3 : i - 8 - 8 < 8 := by omega
      simp [h1, h2, h3, this]

theorem io_top {a : Addr} (h : 0xFF8000 ≤ a.toNat) : a.extractLsb' 16 8 = 0xFF#8 := by
  apply BitVec.eq_of_toNat_eq
  have := a.isLt
  simp only [BitVec.extractLsb'_toNat, Nat.shiftRight_eq_div_pow]
  show a.toNat / 65536 % 256 = 255
  omega

theorem half_bytes (v : Half) : be16 (hi8 v) (lo8 v) = v := by
  apply BitVec.eq_of_getLsbD_eq
  intro i hi
  simp only [be16, hi8, lo8, BitVec.getLsbD_append, BitVec.getLsbD_extractLsb']
  by_cases h1 : i < 8
  · simp [h1]
  · have : 8 + (i - 8) = i := by omega
    have h3 : i - 8 < 8 := by omega
    simp [h1, h3, this]

theorem word_halves (v : Word) : hi16 v ++ lo16 v = v := by
  apply BitVec.eq_of_getLsbD_eq
  intro i hi
  simp only [hi16, lo16, BitVec.getLsbD_append, BitVec.getLsbD_extractLsb']
  by_cases h1 : i < 16
  · simp [h1]
  · have : 16 + (i - 16) = i := by omega
    have h3 : i - 16 < 16 := by omega
    simp [h1, h3, this]

theorem word_bytes (v : Word) : be32 (hi8 (hi16 v)) (lo8 (hi16 v)) (hi8 (lo16 v)) (lo8 (lo16 v)) = v := by
  have := half_bytes (hi16 v)
  have h2 := half_bytes (lo16 v)
  unfold be16 at this h2
  unfold be32
  rw [this, h2, word_halves]

theorem decodeAccess_bytes (a : Addr) (acc : Access) (rest : List Byte) :
    ∃ k t, accessBytes acc ++ rest = k :: t ∧ decodeAccess a k t = .ok (acc, rest) := by
  cases acc
  case wr16 v => exact ⟨_, _, rfl, by simp [decodeAccess, half_bytes]⟩
  case wr32 v => exact ⟨_, _, rfl, by simp [decodeAccess, word_bytes]⟩
  all_goals exact ⟨_, _, rfl, rfl⟩

/-- What a table gives a key is in the table. -/
theorem tableFind_mem {α : Type} {l : List (Nat × α)} {n : Nat} {x : α} (h : tableFind l n = some x) :
    (n, x) ∈ l := by
  induction l with
  | nil => cases h
  | cons c t ih =>
    obtain ⟨k, y⟩ := c
    simp only [tableFind] at h
    split at h
    · next e => cases h; subst e; exact List.mem_cons_self
    · exact List.mem_cons_of_mem _ (ih h)

theorem decode_busFrame {a : Addr} (h : 0xFF8000 ≤ a.toNat) {acc : Access} {i : Instr}
    (hi : decodeBus a acc = .ok i) (rest : List Byte) : decode (busFrame a acc ++ rest) = .ok (i, rest) := by
  obtain ⟨k, t, e, hd⟩ := decodeAccess_bytes a acc rest
  have : busFrame a acc ++ rest
      = a.extractLsb' 0 8 :: a.extractLsb' 8 8 :: a.extractLsb' 16 8 :: k :: t := by
    rw [← e]; rfl
  rw [this]
  unfold decode
  dsimp only
  rw [if_pos (io_top h), addr_bytes]
  simp [decodeBusFrame, hd, hi]


theorem palette_row : ∀ o : BitVec 5, 0xFF8000 ≤ (0xFF8240#24 + o.setWidth 24).toNat ∧
    (firstBusError .byte (0xFF8240#24 + o.setWidth 24)).bind berrUnit = none ∧
    (firstBusError .word (0xFF8240#24 + o.setWidth 24)).bind berrUnit = none ∧
    (firstBusError .long (0xFF8240#24 + o.setWidth 24)).bind berrUnit = none ∧
    ioReg (0xFF8240#24 + o.setWidth 24) = none ∧
    tableFind plainRegTable (0xFF8240#24 + o.setWidth 24).toNat = none ∧
    isPalette (0xFF8240#24 + o.setWidth 24) = true ∧
    (0xFF8240#24 + o.setWidth 24).extractLsb' 0 5 = o := by decide

theorem decodeBus_palette (o : BitVec 5) (acc : Access) :
    decodeBus (0xFF8240#24 + o.setWidth 24) acc = .ok (.palette o acc) := by
  obtain ⟨h0, h1, h2, h3, h4, h5, h6, h7⟩ := palette_row o
  have h : (firstBusError (accessWidth acc) (0xFF8240#24 + o.setWidth 24)).bind berrUnit = none := by
    cases acc <;> assumption
  unfold decodeBus
  rw [if_neg (by omega), h]
  simp only [h4, h5, h6, h7, if_true]

theorem decodeBus_unclaimed {a : Addr} {acc : Access} (h : isUnclaimed a acc = true) :
    decodeBus a acc = .ok (.unclaimedIo a acc) := by
  unfold isUnclaimed at h
  simp only [Bool.and_eq_true, decide_eq_true_eq, Option.isNone_iff_eq_none, Bool.not_eq_true'] at h
  obtain ⟨⟨⟨⟨h0, h1⟩, h2⟩, h3⟩, h4⟩ := h
  unfold decodeBus
  rw [if_neg (by omega), h4]
  simp [h1, h2, h3]

theorem decodeBus_berr {u : BerrUnit} {a : Addr} {acc : Access} (h : touchesBerr u a acc = true) :
    decodeBus a acc = .ok (decodeBerr a acc u) := by
  unfold touchesBerr at h
  simp only [Bool.and_eq_true, decide_eq_true_eq, beq_iff_eq] at h
  unfold decodeBus
  rw [if_neg (by omega), h.2]

end Sys2Proof
end

