-- ==== Sys2Proof/Laws/State.lean ====
section
/-! SUPPORT. Laws/State.lean: beside the state, what each named update leaves alone, one lemma a field and an update,
so that no proof unfolds a record update. -/

namespace Sys2Proof.Machine

variable (s : State)

@[simp] theorem storeByte_params (k : Nat) (v : Byte) : (storeByte k v s).params = s.params := rfl
@[simp] theorem storeByte_cpu (k : Nat) (v : Byte) : (storeByte k v s).cpu = s.cpu := rfl
@[simp] theorem storeByte_arb (k : Nat) (v : Byte) : (storeByte k v s).arb = s.arb := rfl
@[simp] theorem storeByte_mfp (k : Nat) (v : Byte) : (storeByte k v s).mfp = s.mfp := rfl
@[simp] theorem storeByte_ym (k : Nat) (v : Byte) : (storeByte k v s).ym = s.ym := rfl
@[simp] theorem storeByte_wd (k : Nat) (v : Byte) : (storeByte k v s).wd = s.wd := rfl
@[simp] theorem storeByte_disk (k : Nat) (v : Byte) : (storeByte k v s).disk = s.disk := rfl
@[simp] theorem storeByte_acia (k : Nat) (v : Byte) : (storeByte k v s).acia = s.acia := rfl
@[simp] theorem storeByte_ikbd (k : Nat) (v : Byte) : (storeByte k v s).ikbd = s.ikbd := rfl
@[simp] theorem storeByte_video (k : Nat) (v : Byte) : (storeByte k v s).video = s.video := rfl
@[simp] theorem storeByte_loop (k : Nat) (v : Byte) : (storeByte k v s).loop = s.loop := rfl
@[simp] theorem storeByte_ramGen (k : Nat) (v : Byte) : (storeByte k v s).ramGen = s.ramGen := rfl
@[simp] theorem storeByte_host (k : Nat) (v : Byte) : (storeByte k v s).host = s.host := rfl
@[simp] theorem storeByte_ops (k : Nat) (v : Byte) : (storeByte k v s).ops = s.ops := rfl
@[simp] theorem storeByte_bus (k : Nat) (v : Byte) : (storeByte k v s).bus = s.bus := rfl
@[simp] theorem storeByte_draws (k : Nat) (v : Byte) : (storeByte k v s).draws = s.draws := rfl
@[simp] theorem storeByte_faults (k : Nat) (v : Byte) : (storeByte k v s).faults = s.faults := rfl
@[simp] theorem storeByte_refused (k : Nat) (v : Byte) : (storeByte k v s).refused = s.refused := rfl

@[simp] theorem nextDraw_params : (nextDraw s).params = s.params := rfl
@[simp] theorem nextDraw_cpu : (nextDraw s).cpu = s.cpu := rfl
@[simp] theorem nextDraw_arb : (nextDraw s).arb = s.arb := rfl
@[simp] theorem nextDraw_mfp : (nextDraw s).mfp = s.mfp := rfl
@[simp] theorem nextDraw_ym : (nextDraw s).ym = s.ym := rfl
@[simp] theorem nextDraw_wd : (nextDraw s).wd = s.wd := rfl
@[simp] theorem nextDraw_disk : (nextDraw s).disk = s.disk := rfl
@[simp] theorem nextDraw_acia : (nextDraw s).acia = s.acia := rfl
@[simp] theorem nextDraw_ikbd : (nextDraw s).ikbd = s.ikbd := rfl
@[simp] theorem nextDraw_video : (nextDraw s).video = s.video := rfl
@[simp] theorem nextDraw_loop : (nextDraw s).loop = s.loop := rfl
@[simp] theorem nextDraw_mem : (nextDraw s).mem = s.mem := rfl
@[simp] theorem nextDraw_ramGen : (nextDraw s).ramGen = s.ramGen := rfl
@[simp] theorem nextDraw_host : (nextDraw s).host = s.host := rfl
@[simp] theorem nextDraw_ops : (nextDraw s).ops = s.ops := rfl
@[simp] theorem nextDraw_bus : (nextDraw s).bus = s.bus := rfl
@[simp] theorem nextDraw_faults : (nextDraw s).faults = s.faults := rfl
@[simp] theorem nextDraw_refused : (nextDraw s).refused = s.refused := rfl

@[simp] theorem answer_params (v : Word) : (answer v s).params = s.params := rfl
@[simp] theorem answer_cpu (v : Word) : (answer v s).cpu = s.cpu := rfl
@[simp] theorem answer_arb (v : Word) : (answer v s).arb = s.arb := rfl
@[simp] theorem answer_mfp (v : Word) : (answer v s).mfp = s.mfp := rfl
@[simp] theorem answer_ym (v : Word) : (answer v s).ym = s.ym := rfl
@[simp] theorem answer_wd (v : Word) : (answer v s).wd = s.wd := rfl
@[simp] theorem answer_disk (v : Word) : (answer v s).disk = s.disk := rfl
@[simp] theorem answer_acia (v : Word) : (answer v s).acia = s.acia := rfl
@[simp] theorem answer_ikbd (v : Word) : (answer v s).ikbd = s.ikbd := rfl
@[simp] theorem answer_video (v : Word) : (answer v s).video = s.video := rfl
@[simp] theorem answer_loop (v : Word) : (answer v s).loop = s.loop := rfl
@[simp] theorem answer_mem (v : Word) : (answer v s).mem = s.mem := rfl
@[simp] theorem answer_ramGen (v : Word) : (answer v s).ramGen = s.ramGen := rfl
@[simp] theorem answer_host (v : Word) : (answer v s).host = s.host := rfl
@[simp] theorem answer_ops (v : Word) : (answer v s).ops = s.ops := rfl
@[simp] theorem answer_draws (v : Word) : (answer v s).draws = s.draws := rfl
@[simp] theorem answer_faults (v : Word) : (answer v s).faults = s.faults := rfl
@[simp] theorem answer_refused (v : Word) : (answer v s).refused = s.refused := rfl

@[simp] theorem answer8_params (v : Byte) : (answer8 v s).params = s.params := rfl
@[simp] theorem answer8_cpu (v : Byte) : (answer8 v s).cpu = s.cpu := rfl
@[simp] theorem answer8_arb (v : Byte) : (answer8 v s).arb = s.arb := rfl
@[simp] theorem answer8_mfp (v : Byte) : (answer8 v s).mfp = s.mfp := rfl
@[simp] theorem answer8_ym (v : Byte) : (answer8 v s).ym = s.ym := rfl
@[simp] theorem answer8_wd (v : Byte) : (answer8 v s).wd = s.wd := rfl
@[simp] theorem answer8_disk (v : Byte) : (answer8 v s).disk = s.disk := rfl
@[simp] theorem answer8_acia (v : Byte) : (answer8 v s).acia = s.acia := rfl
@[simp] theorem answer8_ikbd (v : Byte) : (answer8 v s).ikbd = s.ikbd := rfl
@[simp] theorem answer8_video (v : Byte) : (answer8 v s).video = s.video := rfl
@[simp] theorem answer8_loop (v : Byte) : (answer8 v s).loop = s.loop := rfl
@[simp] theorem answer8_mem (v : Byte) : (answer8 v s).mem = s.mem := rfl
@[simp] theorem answer8_ramGen (v : Byte) : (answer8 v s).ramGen = s.ramGen := rfl
@[simp] theorem answer8_host (v : Byte) : (answer8 v s).host = s.host := rfl
@[simp] theorem answer8_ops (v : Byte) : (answer8 v s).ops = s.ops := rfl
@[simp] theorem answer8_draws (v : Byte) : (answer8 v s).draws = s.draws := rfl
@[simp] theorem answer8_faults (v : Byte) : (answer8 v s).faults = s.faults := rfl
@[simp] theorem answer8_refused (v : Byte) : (answer8 v s).refused = s.refused := rfl

@[simp] theorem answer16_params (v : Half) : (answer16 v s).params = s.params := rfl
@[simp] theorem answer16_cpu (v : Half) : (answer16 v s).cpu = s.cpu := rfl
@[simp] theorem answer16_arb (v : Half) : (answer16 v s).arb = s.arb := rfl
@[simp] theorem answer16_mfp (v : Half) : (answer16 v s).mfp = s.mfp := rfl
@[simp] theorem answer16_ym (v : Half) : (answer16 v s).ym = s.ym := rfl
@[simp] theorem answer16_wd (v : Half) : (answer16 v s).wd = s.wd := rfl
@[simp] theorem answer16_disk (v : Half) : (answer16 v s).disk = s.disk := rfl
@[simp] theorem answer16_acia (v : Half) : (answer16 v s).acia = s.acia := rfl
@[simp] theorem answer16_ikbd (v : Half) : (answer16 v s).ikbd = s.ikbd := rfl
@[simp] theorem answer16_video (v : Half) : (answer16 v s).video = s.video := rfl
@[simp] theorem answer16_loop (v : Half) : (answer16 v s).loop = s.loop := rfl
@[simp] theorem answer16_mem (v : Half) : (answer16 v s).mem = s.mem := rfl
@[simp] theorem answer16_ramGen (v : Half) : (answer16 v s).ramGen = s.ramGen := rfl
@[simp] theorem answer16_host (v : Half) : (answer16 v s).host = s.host := rfl
@[simp] theorem answer16_ops (v : Half) : (answer16 v s).ops = s.ops := rfl
@[simp] theorem answer16_draws (v : Half) : (answer16 v s).draws = s.draws := rfl
@[simp] theorem answer16_faults (v : Half) : (answer16 v s).faults = s.faults := rfl
@[simp] theorem answer16_refused (v : Half) : (answer16 v s).refused = s.refused := rfl

@[simp] theorem setCore_params (r : CoreRegs) : (setCore r s).params = s.params := rfl
@[simp] theorem setCore_arb (r : CoreRegs) : (setCore r s).arb = s.arb := rfl
@[simp] theorem setCore_mfp (r : CoreRegs) : (setCore r s).mfp = s.mfp := rfl
@[simp] theorem setCore_ym (r : CoreRegs) : (setCore r s).ym = s.ym := rfl
@[simp] theorem setCore_wd (r : CoreRegs) : (setCore r s).wd = s.wd := rfl
@[simp] theorem setCore_disk (r : CoreRegs) : (setCore r s).disk = s.disk := rfl
@[simp] theorem setCore_acia (r : CoreRegs) : (setCore r s).acia = s.acia := rfl
@[simp] theorem setCore_ikbd (r : CoreRegs) : (setCore r s).ikbd = s.ikbd := rfl
@[simp] theorem setCore_video (r : CoreRegs) : (setCore r s).video = s.video := rfl
@[simp] theorem setCore_loop (r : CoreRegs) : (setCore r s).loop = s.loop := rfl
@[simp] theorem setCore_mem (r : CoreRegs) : (setCore r s).mem = s.mem := rfl
@[simp] theorem setCore_ramGen (r : CoreRegs) : (setCore r s).ramGen = s.ramGen := rfl
@[simp] theorem setCore_host (r : CoreRegs) : (setCore r s).host = s.host := rfl
@[simp] theorem setCore_ops (r : CoreRegs) : (setCore r s).ops = s.ops := rfl
@[simp] theorem setCore_bus (r : CoreRegs) : (setCore r s).bus = s.bus := rfl
@[simp] theorem setCore_draws (r : CoreRegs) : (setCore r s).draws = s.draws := rfl
@[simp] theorem setCore_faults (r : CoreRegs) : (setCore r s).faults = s.faults := rfl
@[simp] theorem setCore_refused (r : CoreRegs) : (setCore r s).refused = s.refused := rfl

@[simp] theorem setPc_params (a : Word) : (setPc a s).params = s.params := rfl
@[simp] theorem setPc_arb (a : Word) : (setPc a s).arb = s.arb := rfl
@[simp] theorem setPc_mfp (a : Word) : (setPc a s).mfp = s.mfp := rfl
@[simp] theorem setPc_ym (a : Word) : (setPc a s).ym = s.ym := rfl
@[simp] theorem setPc_wd (a : Word) : (setPc a s).wd = s.wd := rfl
@[simp] theorem setPc_disk (a : Word) : (setPc a s).disk = s.disk := rfl
@[simp] theorem setPc_acia (a : Word) : (setPc a s).acia = s.acia := rfl
@[simp] theorem setPc_ikbd (a : Word) : (setPc a s).ikbd = s.ikbd := rfl
@[simp] theorem setPc_video (a : Word) : (setPc a s).video = s.video := rfl
@[simp] theorem setPc_loop (a : Word) : (setPc a s).loop = s.loop := rfl
@[simp] theorem setPc_mem (a : Word) : (setPc a s).mem = s.mem := rfl
@[simp] theorem setPc_ramGen (a : Word) : (setPc a s).ramGen = s.ramGen := rfl
@[simp] theorem setPc_host (a : Word) : (setPc a s).host = s.host := rfl
@[simp] theorem setPc_ops (a : Word) : (setPc a s).ops = s.ops := rfl
@[simp] theorem setPc_bus (a : Word) : (setPc a s).bus = s.bus := rfl
@[simp] theorem setPc_draws (a : Word) : (setPc a s).draws = s.draws := rfl
@[simp] theorem setPc_faults (a : Word) : (setPc a s).faults = s.faults := rfl
@[simp] theorem setPc_refused (a : Word) : (setPc a s).refused = s.refused := rfl

@[simp] theorem markBerr_params (b : Bool) : (markBerr b s).params = s.params := rfl
@[simp] theorem markBerr_arb (b : Bool) : (markBerr b s).arb = s.arb := rfl
@[simp] theorem markBerr_mfp (b : Bool) : (markBerr b s).mfp = s.mfp := rfl
@[simp] theorem markBerr_ym (b : Bool) : (markBerr b s).ym = s.ym := rfl
@[simp] theorem markBerr_wd (b : Bool) : (markBerr b s).wd = s.wd := rfl
@[simp] theorem markBerr_disk (b : Bool) : (markBerr b s).disk = s.disk := rfl
@[simp] theorem markBerr_acia (b : Bool) : (markBerr b s).acia = s.acia := rfl
@[simp] theorem markBerr_ikbd (b : Bool) : (markBerr b s).ikbd = s.ikbd := rfl
@[simp] theorem markBerr_video (b : Bool) : (markBerr b s).video = s.video := rfl
@[simp] theorem markBerr_loop (b : Bool) : (markBerr b s).loop = s.loop := rfl
@[simp] theorem markBerr_mem (b : Bool) : (markBerr b s).mem = s.mem := rfl
@[simp] theorem markBerr_ramGen (b : Bool) : (markBerr b s).ramGen = s.ramGen := rfl
@[simp] theorem markBerr_host (b : Bool) : (markBerr b s).host = s.host := rfl
@[simp] theorem markBerr_ops (b : Bool) : (markBerr b s).ops = s.ops := rfl
@[simp] theorem markBerr_bus (b : Bool) : (markBerr b s).bus = s.bus := rfl
@[simp] theorem markBerr_draws (b : Bool) : (markBerr b s).draws = s.draws := rfl
@[simp] theorem markBerr_faults (b : Bool) : (markBerr b s).faults = s.faults := rfl
@[simp] theorem markBerr_refused (b : Bool) : (markBerr b s).refused = s.refused := rfl

@[simp] theorem setStopped_params (b : Bool) : (setStopped b s).params = s.params := rfl
@[simp] theorem setStopped_arb (b : Bool) : (setStopped b s).arb = s.arb := rfl
@[simp] theorem setStopped_mfp (b : Bool) : (setStopped b s).mfp = s.mfp := rfl
@[simp] theorem setStopped_ym (b : Bool) : (setStopped b s).ym = s.ym := rfl
@[simp] theorem setStopped_wd (b : Bool) : (setStopped b s).wd = s.wd := rfl
@[simp] theorem setStopped_disk (b : Bool) : (setStopped b s).disk = s.disk := rfl
@[simp] theorem setStopped_acia (b : Bool) : (setStopped b s).acia = s.acia := rfl
@[simp] theorem setStopped_ikbd (b : Bool) : (setStopped b s).ikbd = s.ikbd := rfl
@[simp] theorem setStopped_video (b : Bool) : (setStopped b s).video = s.video := rfl
@[simp] theorem setStopped_loop (b : Bool) : (setStopped b s).loop = s.loop := rfl
@[simp] theorem setStopped_mem (b : Bool) : (setStopped b s).mem = s.mem := rfl
@[simp] theorem setStopped_ramGen (b : Bool) : (setStopped b s).ramGen = s.ramGen := rfl
@[simp] theorem setStopped_host (b : Bool) : (setStopped b s).host = s.host := rfl
@[simp] theorem setStopped_ops (b : Bool) : (setStopped b s).ops = s.ops := rfl
@[simp] theorem setStopped_bus (b : Bool) : (setStopped b s).bus = s.bus := rfl
@[simp] theorem setStopped_draws (b : Bool) : (setStopped b s).draws = s.draws := rfl
@[simp] theorem setStopped_faults (b : Bool) : (setStopped b s).faults = s.faults := rfl
@[simp] theorem setStopped_refused (b : Bool) : (setStopped b s).refused = s.refused := rfl

@[simp] theorem enterSupervisor_params : (enterSupervisor s).params = s.params := rfl
@[simp] theorem enterSupervisor_arb : (enterSupervisor s).arb = s.arb := rfl
@[simp] theorem enterSupervisor_mfp : (enterSupervisor s).mfp = s.mfp := rfl
@[simp] theorem enterSupervisor_ym : (enterSupervisor s).ym = s.ym := rfl
@[simp] theorem enterSupervisor_wd : (enterSupervisor s).wd = s.wd := rfl
@[simp] theorem enterSupervisor_disk : (enterSupervisor s).disk = s.disk := rfl
@[simp] theorem enterSupervisor_acia : (enterSupervisor s).acia = s.acia := rfl
@[simp] theorem enterSupervisor_ikbd : (enterSupervisor s).ikbd = s.ikbd := rfl
@[simp] theorem enterSupervisor_video : (enterSupervisor s).video = s.video := rfl
@[simp] theorem enterSupervisor_loop : (enterSupervisor s).loop = s.loop := rfl
@[simp] theorem enterSupervisor_mem : (enterSupervisor s).mem = s.mem := rfl
@[simp] theorem enterSupervisor_ramGen : (enterSupervisor s).ramGen = s.ramGen := rfl
@[simp] theorem enterSupervisor_host : (enterSupervisor s).host = s.host := rfl
@[simp] theorem enterSupervisor_ops : (enterSupervisor s).ops = s.ops := rfl
@[simp] theorem enterSupervisor_bus : (enterSupervisor s).bus = s.bus := rfl
@[simp] theorem enterSupervisor_draws : (enterSupervisor s).draws = s.draws := rfl
@[simp] theorem enterSupervisor_faults : (enterSupervisor s).faults = s.faults := rfl
@[simp] theorem enterSupervisor_refused : (enterSupervisor s).refused = s.refused := rfl

@[simp] theorem setAhead_params (l : List (Addr × Half)) : (setAhead l s).params = s.params := rfl
@[simp] theorem setAhead_arb (l : List (Addr × Half)) : (setAhead l s).arb = s.arb := rfl
@[simp] theorem setAhead_mfp (l : List (Addr × Half)) : (setAhead l s).mfp = s.mfp := rfl
@[simp] theorem setAhead_ym (l : List (Addr × Half)) : (setAhead l s).ym = s.ym := rfl
@[simp] theorem setAhead_wd (l : List (Addr × Half)) : (setAhead l s).wd = s.wd := rfl
@[simp] theorem setAhead_disk (l : List (Addr × Half)) : (setAhead l s).disk = s.disk := rfl
@[simp] theorem setAhead_acia (l : List (Addr × Half)) : (setAhead l s).acia = s.acia := rfl
@[simp] theorem setAhead_ikbd (l : List (Addr × Half)) : (setAhead l s).ikbd = s.ikbd := rfl
@[simp] theorem setAhead_video (l : List (Addr × Half)) : (setAhead l s).video = s.video := rfl
@[simp] theorem setAhead_loop (l : List (Addr × Half)) : (setAhead l s).loop = s.loop := rfl
@[simp] theorem setAhead_mem (l : List (Addr × Half)) : (setAhead l s).mem = s.mem := rfl
@[simp] theorem setAhead_ramGen (l : List (Addr × Half)) : (setAhead l s).ramGen = s.ramGen := rfl
@[simp] theorem setAhead_host (l : List (Addr × Half)) : (setAhead l s).host = s.host := rfl
@[simp] theorem setAhead_ops (l : List (Addr × Half)) : (setAhead l s).ops = s.ops := rfl
@[simp] theorem setAhead_bus (l : List (Addr × Half)) : (setAhead l s).bus = s.bus := rfl
@[simp] theorem setAhead_draws (l : List (Addr × Half)) : (setAhead l s).draws = s.draws := rfl
@[simp] theorem setAhead_faults (l : List (Addr × Half)) : (setAhead l s).faults = s.faults := rfl
@[simp] theorem setAhead_refused (l : List (Addr × Half)) : (setAhead l s).refused = s.refused := rfl

@[simp] theorem betweenInstructions_params : (betweenInstructions s).params = s.params := rfl
@[simp] theorem betweenInstructions_arb : (betweenInstructions s).arb = s.arb := rfl
@[simp] theorem betweenInstructions_mfp : (betweenInstructions s).mfp = s.mfp := rfl
@[simp] theorem betweenInstructions_ym : (betweenInstructions s).ym = s.ym := rfl
@[simp] theorem betweenInstructions_wd : (betweenInstructions s).wd = s.wd := rfl
@[simp] theorem betweenInstructions_disk : (betweenInstructions s).disk = s.disk := rfl
@[simp] theorem betweenInstructions_acia : (betweenInstructions s).acia = s.acia := rfl
@[simp] theorem betweenInstructions_ikbd : (betweenInstructions s).ikbd = s.ikbd := rfl
@[simp] theorem betweenInstructions_video : (betweenInstructions s).video = s.video := rfl
@[simp] theorem betweenInstructions_loop : (betweenInstructions s).loop = s.loop := rfl
@[simp] theorem betweenInstructions_mem : (betweenInstructions s).mem = s.mem := rfl
@[simp] theorem betweenInstructions_ramGen : (betweenInstructions s).ramGen = s.ramGen := rfl
@[simp] theorem betweenInstructions_host : (betweenInstructions s).host = s.host := rfl
@[simp] theorem betweenInstructions_ops : (betweenInstructions s).ops = s.ops := rfl
@[simp] theorem betweenInstructions_bus : (betweenInstructions s).bus = s.bus := rfl
@[simp] theorem betweenInstructions_faults : (betweenInstructions s).faults = s.faults := rfl
@[simp] theorem betweenInstructions_refused : (betweenInstructions s).refused = s.refused := rfl

@[simp] theorem noteAhead_params (s0 : State) : (noteAhead s0 s).params = s.params := rfl
@[simp] theorem noteAhead_arb (s0 : State) : (noteAhead s0 s).arb = s.arb := rfl
@[simp] theorem noteAhead_mfp (s0 : State) : (noteAhead s0 s).mfp = s.mfp := rfl
@[simp] theorem noteAhead_ym (s0 : State) : (noteAhead s0 s).ym = s.ym := rfl
@[simp] theorem noteAhead_wd (s0 : State) : (noteAhead s0 s).wd = s.wd := rfl
@[simp] theorem noteAhead_disk (s0 : State) : (noteAhead s0 s).disk = s.disk := rfl
@[simp] theorem noteAhead_acia (s0 : State) : (noteAhead s0 s).acia = s.acia := rfl
@[simp] theorem noteAhead_ikbd (s0 : State) : (noteAhead s0 s).ikbd = s.ikbd := rfl
@[simp] theorem noteAhead_video (s0 : State) : (noteAhead s0 s).video = s.video := rfl
@[simp] theorem noteAhead_loop (s0 : State) : (noteAhead s0 s).loop = s.loop := rfl
@[simp] theorem noteAhead_mem (s0 : State) : (noteAhead s0 s).mem = s.mem := rfl
@[simp] theorem noteAhead_ramGen (s0 : State) : (noteAhead s0 s).ramGen = s.ramGen := rfl
@[simp] theorem noteAhead_host (s0 : State) : (noteAhead s0 s).host = s.host := rfl
@[simp] theorem noteAhead_ops (s0 : State) : (noteAhead s0 s).ops = s.ops := rfl
@[simp] theorem noteAhead_bus (s0 : State) : (noteAhead s0 s).bus = s.bus := rfl
@[simp] theorem noteAhead_draws (s0 : State) : (noteAhead s0 s).draws = s.draws := rfl
@[simp] theorem noteAhead_faults (s0 : State) : (noteAhead s0 s).faults = s.faults := rfl
@[simp] theorem noteAhead_refused (s0 : State) : (noteAhead s0 s).refused = s.refused := rfl

@[simp] theorem commitRegs_params (r : CoreRegs) : (commitRegs r s).params = s.params := rfl
@[simp] theorem commitRegs_arb (r : CoreRegs) : (commitRegs r s).arb = s.arb := rfl
@[simp] theorem commitRegs_mfp (r : CoreRegs) : (commitRegs r s).mfp = s.mfp := rfl
@[simp] theorem commitRegs_ym (r : CoreRegs) : (commitRegs r s).ym = s.ym := rfl
@[simp] theorem commitRegs_wd (r : CoreRegs) : (commitRegs r s).wd = s.wd := rfl
@[simp] theorem commitRegs_disk (r : CoreRegs) : (commitRegs r s).disk = s.disk := rfl
@[simp] theorem commitRegs_acia (r : CoreRegs) : (commitRegs r s).acia = s.acia := rfl
@[simp] theorem commitRegs_ikbd (r : CoreRegs) : (commitRegs r s).ikbd = s.ikbd := rfl
@[simp] theorem commitRegs_video (r : CoreRegs) : (commitRegs r s).video = s.video := rfl
@[simp] theorem commitRegs_loop (r : CoreRegs) : (commitRegs r s).loop = s.loop := rfl
@[simp] theorem commitRegs_mem (r : CoreRegs) : (commitRegs r s).mem = s.mem := rfl
@[simp] theorem commitRegs_ramGen (r : CoreRegs) : (commitRegs r s).ramGen = s.ramGen := rfl
@[simp] theorem commitRegs_host (r : CoreRegs) : (commitRegs r s).host = s.host := rfl
@[simp] theorem commitRegs_ops (r : CoreRegs) : (commitRegs r s).ops = s.ops := rfl
@[simp] theorem commitRegs_bus (r : CoreRegs) : (commitRegs r s).bus = s.bus := rfl
@[simp] theorem commitRegs_draws (r : CoreRegs) : (commitRegs r s).draws = s.draws := rfl
@[simp] theorem commitRegs_faults (r : CoreRegs) : (commitRegs r s).faults = s.faults := rfl
@[simp] theorem commitRegs_refused (r : CoreRegs) : (commitRegs r s).refused = s.refused := rfl

@[simp] theorem dropAhead_params (a : Addr) : (dropAhead a s).params = s.params := rfl
@[simp] theorem dropAhead_arb (a : Addr) : (dropAhead a s).arb = s.arb := rfl
@[simp] theorem dropAhead_mfp (a : Addr) : (dropAhead a s).mfp = s.mfp := rfl
@[simp] theorem dropAhead_ym (a : Addr) : (dropAhead a s).ym = s.ym := rfl
@[simp] theorem dropAhead_wd (a : Addr) : (dropAhead a s).wd = s.wd := rfl
@[simp] theorem dropAhead_disk (a : Addr) : (dropAhead a s).disk = s.disk := rfl
@[simp] theorem dropAhead_acia (a : Addr) : (dropAhead a s).acia = s.acia := rfl
@[simp] theorem dropAhead_ikbd (a : Addr) : (dropAhead a s).ikbd = s.ikbd := rfl
@[simp] theorem dropAhead_video (a : Addr) : (dropAhead a s).video = s.video := rfl
@[simp] theorem dropAhead_loop (a : Addr) : (dropAhead a s).loop = s.loop := rfl
@[simp] theorem dropAhead_mem (a : Addr) : (dropAhead a s).mem = s.mem := rfl
@[simp] theorem dropAhead_ramGen (a : Addr) : (dropAhead a s).ramGen = s.ramGen := rfl
@[simp] theorem dropAhead_host (a : Addr) : (dropAhead a s).host = s.host := rfl
@[simp] theorem dropAhead_ops (a : Addr) : (dropAhead a s).ops = s.ops := rfl
@[simp] theorem dropAhead_bus (a : Addr) : (dropAhead a s).bus = s.bus := rfl
@[simp] theorem dropAhead_draws (a : Addr) : (dropAhead a s).draws = s.draws := rfl
@[simp] theorem dropAhead_faults (a : Addr) : (dropAhead a s).faults = s.faults := rfl
@[simp] theorem dropAhead_refused (a : Addr) : (dropAhead a s).refused = s.refused := rfl

@[simp] theorem recomputeIpl_params : (recomputeIpl s).params = s.params := rfl
@[simp] theorem recomputeIpl_arb : (recomputeIpl s).arb = s.arb := rfl
@[simp] theorem recomputeIpl_mfp : (recomputeIpl s).mfp = s.mfp := rfl
@[simp] theorem recomputeIpl_ym : (recomputeIpl s).ym = s.ym := rfl
@[simp] theorem recomputeIpl_wd : (recomputeIpl s).wd = s.wd := rfl
@[simp] theorem recomputeIpl_disk : (recomputeIpl s).disk = s.disk := rfl
@[simp] theorem recomputeIpl_acia : (recomputeIpl s).acia = s.acia := rfl
@[simp] theorem recomputeIpl_ikbd : (recomputeIpl s).ikbd = s.ikbd := rfl
@[simp] theorem recomputeIpl_video : (recomputeIpl s).video = s.video := rfl
@[simp] theorem recomputeIpl_loop : (recomputeIpl s).loop = s.loop := rfl
@[simp] theorem recomputeIpl_mem : (recomputeIpl s).mem = s.mem := rfl
@[simp] theorem recomputeIpl_ramGen : (recomputeIpl s).ramGen = s.ramGen := rfl
@[simp] theorem recomputeIpl_host : (recomputeIpl s).host = s.host := rfl
@[simp] theorem recomputeIpl_ops : (recomputeIpl s).ops = s.ops := rfl
@[simp] theorem recomputeIpl_bus : (recomputeIpl s).bus = s.bus := rfl
@[simp] theorem recomputeIpl_draws : (recomputeIpl s).draws = s.draws := rfl
@[simp] theorem recomputeIpl_faults : (recomputeIpl s).faults = s.faults := rfl
@[simp] theorem recomputeIpl_refused : (recomputeIpl s).refused = s.refused := rfl

@[simp] theorem raiseHbl_params : (raiseHbl s).params = s.params := rfl
@[simp] theorem raiseHbl_mfp : (raiseHbl s).mfp = s.mfp := rfl
@[simp] theorem raiseHbl_ym : (raiseHbl s).ym = s.ym := rfl
@[simp] theorem raiseHbl_wd : (raiseHbl s).wd = s.wd := rfl
@[simp] theorem raiseHbl_disk : (raiseHbl s).disk = s.disk := rfl
@[simp] theorem raiseHbl_acia : (raiseHbl s).acia = s.acia := rfl
@[simp] theorem raiseHbl_ikbd : (raiseHbl s).ikbd = s.ikbd := rfl
@[simp] theorem raiseHbl_video : (raiseHbl s).video = s.video := rfl
@[simp] theorem raiseHbl_loop : (raiseHbl s).loop = s.loop := rfl
@[simp] theorem raiseHbl_mem : (raiseHbl s).mem = s.mem := rfl
@[simp] theorem raiseHbl_ramGen : (raiseHbl s).ramGen = s.ramGen := rfl
@[simp] theorem raiseHbl_host : (raiseHbl s).host = s.host := rfl
@[simp] theorem raiseHbl_ops : (raiseHbl s).ops = s.ops := rfl
@[simp] theorem raiseHbl_bus : (raiseHbl s).bus = s.bus := rfl
@[simp] theorem raiseHbl_draws : (raiseHbl s).draws = s.draws := rfl
@[simp] theorem raiseHbl_faults : (raiseHbl s).faults = s.faults := rfl
@[simp] theorem raiseHbl_refused : (raiseHbl s).refused = s.refused := rfl

@[simp] theorem raiseVbl_params : (raiseVbl s).params = s.params := rfl
@[simp] theorem raiseVbl_mfp : (raiseVbl s).mfp = s.mfp := rfl
@[simp] theorem raiseVbl_ym : (raiseVbl s).ym = s.ym := rfl
@[simp] theorem raiseVbl_wd : (raiseVbl s).wd = s.wd := rfl
@[simp] theorem raiseVbl_disk : (raiseVbl s).disk = s.disk := rfl
@[simp] theorem raiseVbl_acia : (raiseVbl s).acia = s.acia := rfl
@[simp] theorem raiseVbl_ikbd : (raiseVbl s).ikbd = s.ikbd := rfl
@[simp] theorem raiseVbl_video : (raiseVbl s).video = s.video := rfl
@[simp] theorem raiseVbl_loop : (raiseVbl s).loop = s.loop := rfl
@[simp] theorem raiseVbl_mem : (raiseVbl s).mem = s.mem := rfl
@[simp] theorem raiseVbl_ramGen : (raiseVbl s).ramGen = s.ramGen := rfl
@[simp] theorem raiseVbl_host : (raiseVbl s).host = s.host := rfl
@[simp] theorem raiseVbl_ops : (raiseVbl s).ops = s.ops := rfl
@[simp] theorem raiseVbl_bus : (raiseVbl s).bus = s.bus := rfl
@[simp] theorem raiseVbl_draws : (raiseVbl s).draws = s.draws := rfl
@[simp] theorem raiseVbl_faults : (raiseVbl s).faults = s.faults := rfl
@[simp] theorem raiseVbl_refused : (raiseVbl s).refused = s.refused := rfl

@[simp] theorem clearHbl_params : (clearHbl s).params = s.params := rfl
@[simp] theorem clearHbl_mfp : (clearHbl s).mfp = s.mfp := rfl
@[simp] theorem clearHbl_ym : (clearHbl s).ym = s.ym := rfl
@[simp] theorem clearHbl_wd : (clearHbl s).wd = s.wd := rfl
@[simp] theorem clearHbl_disk : (clearHbl s).disk = s.disk := rfl
@[simp] theorem clearHbl_acia : (clearHbl s).acia = s.acia := rfl
@[simp] theorem clearHbl_ikbd : (clearHbl s).ikbd = s.ikbd := rfl
@[simp] theorem clearHbl_video : (clearHbl s).video = s.video := rfl
@[simp] theorem clearHbl_loop : (clearHbl s).loop = s.loop := rfl
@[simp] theorem clearHbl_mem : (clearHbl s).mem = s.mem := rfl
@[simp] theorem clearHbl_ramGen : (clearHbl s).ramGen = s.ramGen := rfl
@[simp] theorem clearHbl_host : (clearHbl s).host = s.host := rfl
@[simp] theorem clearHbl_ops : (clearHbl s).ops = s.ops := rfl
@[simp] theorem clearHbl_bus : (clearHbl s).bus = s.bus := rfl
@[simp] theorem clearHbl_draws : (clearHbl s).draws = s.draws := rfl
@[simp] theorem clearHbl_faults : (clearHbl s).faults = s.faults := rfl
@[simp] theorem clearHbl_refused : (clearHbl s).refused = s.refused := rfl

@[simp] theorem clearVbl_params : (clearVbl s).params = s.params := rfl
@[simp] theorem clearVbl_mfp : (clearVbl s).mfp = s.mfp := rfl
@[simp] theorem clearVbl_ym : (clearVbl s).ym = s.ym := rfl
@[simp] theorem clearVbl_wd : (clearVbl s).wd = s.wd := rfl
@[simp] theorem clearVbl_disk : (clearVbl s).disk = s.disk := rfl
@[simp] theorem clearVbl_acia : (clearVbl s).acia = s.acia := rfl
@[simp] theorem clearVbl_ikbd : (clearVbl s).ikbd = s.ikbd := rfl
@[simp] theorem clearVbl_video : (clearVbl s).video = s.video := rfl
@[simp] theorem clearVbl_loop : (clearVbl s).loop = s.loop := rfl
@[simp] theorem clearVbl_mem : (clearVbl s).mem = s.mem := rfl
@[simp] theorem clearVbl_ramGen : (clearVbl s).ramGen = s.ramGen := rfl
@[simp] theorem clearVbl_host : (clearVbl s).host = s.host := rfl
@[simp] theorem clearVbl_ops : (clearVbl s).ops = s.ops := rfl
@[simp] theorem clearVbl_bus : (clearVbl s).bus = s.bus := rfl
@[simp] theorem clearVbl_draws : (clearVbl s).draws = s.draws := rfl
@[simp] theorem clearVbl_faults : (clearVbl s).faults = s.faults := rfl
@[simp] theorem clearVbl_refused : (clearVbl s).refused = s.refused := rfl

@[simp] theorem updateIrq_params : (updateIrq s).params = s.params := rfl
@[simp] theorem updateIrq_mfp : (updateIrq s).mfp = s.mfp := rfl
@[simp] theorem updateIrq_ym : (updateIrq s).ym = s.ym := rfl
@[simp] theorem updateIrq_wd : (updateIrq s).wd = s.wd := rfl
@[simp] theorem updateIrq_disk : (updateIrq s).disk = s.disk := rfl
@[simp] theorem updateIrq_acia : (updateIrq s).acia = s.acia := rfl
@[simp] theorem updateIrq_ikbd : (updateIrq s).ikbd = s.ikbd := rfl
@[simp] theorem updateIrq_video : (updateIrq s).video = s.video := rfl
@[simp] theorem updateIrq_loop : (updateIrq s).loop = s.loop := rfl
@[simp] theorem updateIrq_mem : (updateIrq s).mem = s.mem := rfl
@[simp] theorem updateIrq_ramGen : (updateIrq s).ramGen = s.ramGen := rfl
@[simp] theorem updateIrq_host : (updateIrq s).host = s.host := rfl
@[simp] theorem updateIrq_ops : (updateIrq s).ops = s.ops := rfl
@[simp] theorem updateIrq_bus : (updateIrq s).bus = s.bus := rfl
@[simp] theorem updateIrq_draws : (updateIrq s).draws = s.draws := rfl
@[simp] theorem updateIrq_faults : (updateIrq s).faults = s.faults := rfl
@[simp] theorem updateIrq_refused : (updateIrq s).refused = s.refused := rfl

@[simp] theorem setMfpIrq_params (m : Mfp) : (setMfpIrq m s).params = s.params := rfl
@[simp] theorem setMfpIrq_ym (m : Mfp) : (setMfpIrq m s).ym = s.ym := rfl
@[simp] theorem setMfpIrq_wd (m : Mfp) : (setMfpIrq m s).wd = s.wd := rfl
@[simp] theorem setMfpIrq_disk (m : Mfp) : (setMfpIrq m s).disk = s.disk := rfl
@[simp] theorem setMfpIrq_acia (m : Mfp) : (setMfpIrq m s).acia = s.acia := rfl
@[simp] theorem setMfpIrq_ikbd (m : Mfp) : (setMfpIrq m s).ikbd = s.ikbd := rfl
@[simp] theorem setMfpIrq_video (m : Mfp) : (setMfpIrq m s).video = s.video := rfl
@[simp] theorem setMfpIrq_loop (m : Mfp) : (setMfpIrq m s).loop = s.loop := rfl
@[simp] theorem setMfpIrq_mem (m : Mfp) : (setMfpIrq m s).mem = s.mem := rfl
@[simp] theorem setMfpIrq_ramGen (m : Mfp) : (setMfpIrq m s).ramGen = s.ramGen := rfl
@[simp] theorem setMfpIrq_host (m : Mfp) : (setMfpIrq m s).host = s.host := rfl
@[simp] theorem setMfpIrq_ops (m : Mfp) : (setMfpIrq m s).ops = s.ops := rfl
@[simp] theorem setMfpIrq_bus (m : Mfp) : (setMfpIrq m s).bus = s.bus := rfl
@[simp] theorem setMfpIrq_draws (m : Mfp) : (setMfpIrq m s).draws = s.draws := rfl
@[simp] theorem setMfpIrq_faults (m : Mfp) : (setMfpIrq m s).faults = s.faults := rfl
@[simp] theorem setMfpIrq_refused (m : Mfp) : (setMfpIrq m s).refused = s.refused := rfl

@[simp] theorem writeGpip_params (v : Byte) : (writeGpip v s).params = s.params := rfl
@[simp] theorem writeGpip_cpu (v : Byte) : (writeGpip v s).cpu = s.cpu := rfl
@[simp] theorem writeGpip_arb (v : Byte) : (writeGpip v s).arb = s.arb := rfl
@[simp] theorem writeGpip_ym (v : Byte) : (writeGpip v s).ym = s.ym := rfl
@[simp] theorem writeGpip_wd (v : Byte) : (writeGpip v s).wd = s.wd := rfl
@[simp] theorem writeGpip_disk (v : Byte) : (writeGpip v s).disk = s.disk := rfl
@[simp] theorem writeGpip_acia (v : Byte) : (writeGpip v s).acia = s.acia := rfl
@[simp] theorem writeGpip_ikbd (v : Byte) : (writeGpip v s).ikbd = s.ikbd := rfl
@[simp] theorem writeGpip_video (v : Byte) : (writeGpip v s).video = s.video := rfl
@[simp] theorem writeGpip_loop (v : Byte) : (writeGpip v s).loop = s.loop := rfl
@[simp] theorem writeGpip_mem (v : Byte) : (writeGpip v s).mem = s.mem := rfl
@[simp] theorem writeGpip_ramGen (v : Byte) : (writeGpip v s).ramGen = s.ramGen := rfl
@[simp] theorem writeGpip_host (v : Byte) : (writeGpip v s).host = s.host := rfl
@[simp] theorem writeGpip_ops (v : Byte) : (writeGpip v s).ops = s.ops := rfl
@[simp] theorem writeGpip_bus (v : Byte) : (writeGpip v s).bus = s.bus := rfl
@[simp] theorem writeGpip_draws (v : Byte) : (writeGpip v s).draws = s.draws := rfl
@[simp] theorem writeGpip_faults (v : Byte) : (writeGpip v s).faults = s.faults := rfl
@[simp] theorem writeGpip_refused (v : Byte) : (writeGpip v s).refused = s.refused := rfl

@[simp] theorem writeAer_params (v : Byte) : (writeAer v s).params = s.params := rfl
@[simp] theorem writeAer_cpu (v : Byte) : (writeAer v s).cpu = s.cpu := rfl
@[simp] theorem writeAer_arb (v : Byte) : (writeAer v s).arb = s.arb := rfl
@[simp] theorem writeAer_ym (v : Byte) : (writeAer v s).ym = s.ym := rfl
@[simp] theorem writeAer_wd (v : Byte) : (writeAer v s).wd = s.wd := rfl
@[simp] theorem writeAer_disk (v : Byte) : (writeAer v s).disk = s.disk := rfl
@[simp] theorem writeAer_acia (v : Byte) : (writeAer v s).acia = s.acia := rfl
@[simp] theorem writeAer_ikbd (v : Byte) : (writeAer v s).ikbd = s.ikbd := rfl
@[simp] theorem writeAer_video (v : Byte) : (writeAer v s).video = s.video := rfl
@[simp] theorem writeAer_loop (v : Byte) : (writeAer v s).loop = s.loop := rfl
@[simp] theorem writeAer_mem (v : Byte) : (writeAer v s).mem = s.mem := rfl
@[simp] theorem writeAer_ramGen (v : Byte) : (writeAer v s).ramGen = s.ramGen := rfl
@[simp] theorem writeAer_host (v : Byte) : (writeAer v s).host = s.host := rfl
@[simp] theorem writeAer_ops (v : Byte) : (writeAer v s).ops = s.ops := rfl
@[simp] theorem writeAer_bus (v : Byte) : (writeAer v s).bus = s.bus := rfl
@[simp] theorem writeAer_draws (v : Byte) : (writeAer v s).draws = s.draws := rfl
@[simp] theorem writeAer_faults (v : Byte) : (writeAer v s).faults = s.faults := rfl
@[simp] theorem writeAer_refused (v : Byte) : (writeAer v s).refused = s.refused := rfl

@[simp] theorem writeDdr_params (v : Byte) : (writeDdr v s).params = s.params := rfl
@[simp] theorem writeDdr_cpu (v : Byte) : (writeDdr v s).cpu = s.cpu := rfl
@[simp] theorem writeDdr_arb (v : Byte) : (writeDdr v s).arb = s.arb := rfl
@[simp] theorem writeDdr_ym (v : Byte) : (writeDdr v s).ym = s.ym := rfl
@[simp] theorem writeDdr_wd (v : Byte) : (writeDdr v s).wd = s.wd := rfl
@[simp] theorem writeDdr_disk (v : Byte) : (writeDdr v s).disk = s.disk := rfl
@[simp] theorem writeDdr_acia (v : Byte) : (writeDdr v s).acia = s.acia := rfl
@[simp] theorem writeDdr_ikbd (v : Byte) : (writeDdr v s).ikbd = s.ikbd := rfl
@[simp] theorem writeDdr_video (v : Byte) : (writeDdr v s).video = s.video := rfl
@[simp] theorem writeDdr_loop (v : Byte) : (writeDdr v s).loop = s.loop := rfl
@[simp] theorem writeDdr_mem (v : Byte) : (writeDdr v s).mem = s.mem := rfl
@[simp] theorem writeDdr_ramGen (v : Byte) : (writeDdr v s).ramGen = s.ramGen := rfl
@[simp] theorem writeDdr_host (v : Byte) : (writeDdr v s).host = s.host := rfl
@[simp] theorem writeDdr_ops (v : Byte) : (writeDdr v s).ops = s.ops := rfl
@[simp] theorem writeDdr_bus (v : Byte) : (writeDdr v s).bus = s.bus := rfl
@[simp] theorem writeDdr_draws (v : Byte) : (writeDdr v s).draws = s.draws := rfl
@[simp] theorem writeDdr_faults (v : Byte) : (writeDdr v s).faults = s.faults := rfl
@[simp] theorem writeDdr_refused (v : Byte) : (writeDdr v s).refused = s.refused := rfl

@[simp] theorem writeTacr_params (v : Byte) : (writeTacr v s).params = s.params := rfl
@[simp] theorem writeTacr_cpu (v : Byte) : (writeTacr v s).cpu = s.cpu := rfl
@[simp] theorem writeTacr_arb (v : Byte) : (writeTacr v s).arb = s.arb := rfl
@[simp] theorem writeTacr_ym (v : Byte) : (writeTacr v s).ym = s.ym := rfl
@[simp] theorem writeTacr_wd (v : Byte) : (writeTacr v s).wd = s.wd := rfl
@[simp] theorem writeTacr_disk (v : Byte) : (writeTacr v s).disk = s.disk := rfl
@[simp] theorem writeTacr_acia (v : Byte) : (writeTacr v s).acia = s.acia := rfl
@[simp] theorem writeTacr_ikbd (v : Byte) : (writeTacr v s).ikbd = s.ikbd := rfl
@[simp] theorem writeTacr_video (v : Byte) : (writeTacr v s).video = s.video := rfl
@[simp] theorem writeTacr_loop (v : Byte) : (writeTacr v s).loop = s.loop := rfl
@[simp] theorem writeTacr_mem (v : Byte) : (writeTacr v s).mem = s.mem := rfl
@[simp] theorem writeTacr_ramGen (v : Byte) : (writeTacr v s).ramGen = s.ramGen := rfl
@[simp] theorem writeTacr_host (v : Byte) : (writeTacr v s).host = s.host := rfl
@[simp] theorem writeTacr_ops (v : Byte) : (writeTacr v s).ops = s.ops := rfl
@[simp] theorem writeTacr_bus (v : Byte) : (writeTacr v s).bus = s.bus := rfl
@[simp] theorem writeTacr_draws (v : Byte) : (writeTacr v s).draws = s.draws := rfl
@[simp] theorem writeTacr_faults (v : Byte) : (writeTacr v s).faults = s.faults := rfl
@[simp] theorem writeTacr_refused (v : Byte) : (writeTacr v s).refused = s.refused := rfl

@[simp] theorem writeTbcr_params (v : Byte) : (writeTbcr v s).params = s.params := rfl
@[simp] theorem writeTbcr_cpu (v : Byte) : (writeTbcr v s).cpu = s.cpu := rfl
@[simp] theorem writeTbcr_arb (v : Byte) : (writeTbcr v s).arb = s.arb := rfl
@[simp] theorem writeTbcr_ym (v : Byte) : (writeTbcr v s).ym = s.ym := rfl
@[simp] theorem writeTbcr_wd (v : Byte) : (writeTbcr v s).wd = s.wd := rfl
@[simp] theorem writeTbcr_disk (v : Byte) : (writeTbcr v s).disk = s.disk := rfl
@[simp] theorem writeTbcr_acia (v : Byte) : (writeTbcr v s).acia = s.acia := rfl
@[simp] theorem writeTbcr_ikbd (v : Byte) : (writeTbcr v s).ikbd = s.ikbd := rfl
@[simp] theorem writeTbcr_video (v : Byte) : (writeTbcr v s).video = s.video := rfl
@[simp] theorem writeTbcr_loop (v : Byte) : (writeTbcr v s).loop = s.loop := rfl
@[simp] theorem writeTbcr_mem (v : Byte) : (writeTbcr v s).mem = s.mem := rfl
@[simp] theorem writeTbcr_ramGen (v : Byte) : (writeTbcr v s).ramGen = s.ramGen := rfl
@[simp] theorem writeTbcr_host (v : Byte) : (writeTbcr v s).host = s.host := rfl
@[simp] theorem writeTbcr_ops (v : Byte) : (writeTbcr v s).ops = s.ops := rfl
@[simp] theorem writeTbcr_bus (v : Byte) : (writeTbcr v s).bus = s.bus := rfl
@[simp] theorem writeTbcr_draws (v : Byte) : (writeTbcr v s).draws = s.draws := rfl
@[simp] theorem writeTbcr_faults (v : Byte) : (writeTbcr v s).faults = s.faults := rfl
@[simp] theorem writeTbcr_refused (v : Byte) : (writeTbcr v s).refused = s.refused := rfl

@[simp] theorem writeTcdcr_params (v : Byte) : (writeTcdcr v s).params = s.params := rfl
@[simp] theorem writeTcdcr_cpu (v : Byte) : (writeTcdcr v s).cpu = s.cpu := rfl
@[simp] theorem writeTcdcr_arb (v : Byte) : (writeTcdcr v s).arb = s.arb := rfl
@[simp] theorem writeTcdcr_ym (v : Byte) : (writeTcdcr v s).ym = s.ym := rfl
@[simp] theorem writeTcdcr_wd (v : Byte) : (writeTcdcr v s).wd = s.wd := rfl
@[simp] theorem writeTcdcr_disk (v : Byte) : (writeTcdcr v s).disk = s.disk := rfl
@[simp] theorem writeTcdcr_acia (v : Byte) : (writeTcdcr v s).acia = s.acia := rfl
@[simp] theorem writeTcdcr_ikbd (v : Byte) : (writeTcdcr v s).ikbd = s.ikbd := rfl
@[simp] theorem writeTcdcr_video (v : Byte) : (writeTcdcr v s).video = s.video := rfl
@[simp] theorem writeTcdcr_loop (v : Byte) : (writeTcdcr v s).loop = s.loop := rfl
@[simp] theorem writeTcdcr_mem (v : Byte) : (writeTcdcr v s).mem = s.mem := rfl
@[simp] theorem writeTcdcr_ramGen (v : Byte) : (writeTcdcr v s).ramGen = s.ramGen := rfl
@[simp] theorem writeTcdcr_host (v : Byte) : (writeTcdcr v s).host = s.host := rfl
@[simp] theorem writeTcdcr_ops (v : Byte) : (writeTcdcr v s).ops = s.ops := rfl
@[simp] theorem writeTcdcr_bus (v : Byte) : (writeTcdcr v s).bus = s.bus := rfl
@[simp] theorem writeTcdcr_draws (v : Byte) : (writeTcdcr v s).draws = s.draws := rfl
@[simp] theorem writeTcdcr_faults (v : Byte) : (writeTcdcr v s).faults = s.faults := rfl
@[simp] theorem writeTcdcr_refused (v : Byte) : (writeTcdcr v s).refused = s.refused := rfl

@[simp] theorem writeTimerData_params (t : Timer) (v : Byte) : (writeTimerData t v s).params = s.params := rfl
@[simp] theorem writeTimerData_cpu (t : Timer) (v : Byte) : (writeTimerData t v s).cpu = s.cpu := rfl
@[simp] theorem writeTimerData_arb (t : Timer) (v : Byte) : (writeTimerData t v s).arb = s.arb := rfl
@[simp] theorem writeTimerData_ym (t : Timer) (v : Byte) : (writeTimerData t v s).ym = s.ym := rfl
@[simp] theorem writeTimerData_wd (t : Timer) (v : Byte) : (writeTimerData t v s).wd = s.wd := rfl
@[simp] theorem writeTimerData_disk (t : Timer) (v : Byte) : (writeTimerData t v s).disk = s.disk := rfl
@[simp] theorem writeTimerData_acia (t : Timer) (v : Byte) : (writeTimerData t v s).acia = s.acia := rfl
@[simp] theorem writeTimerData_ikbd (t : Timer) (v : Byte) : (writeTimerData t v s).ikbd = s.ikbd := rfl
@[simp] theorem writeTimerData_video (t : Timer) (v : Byte) : (writeTimerData t v s).video = s.video := rfl
@[simp] theorem writeTimerData_loop (t : Timer) (v : Byte) : (writeTimerData t v s).loop = s.loop := rfl
@[simp] theorem writeTimerData_mem (t : Timer) (v : Byte) : (writeTimerData t v s).mem = s.mem := rfl
@[simp] theorem writeTimerData_ramGen (t : Timer) (v : Byte) : (writeTimerData t v s).ramGen = s.ramGen := rfl
@[simp] theorem writeTimerData_host (t : Timer) (v : Byte) : (writeTimerData t v s).host = s.host := rfl
@[simp] theorem writeTimerData_ops (t : Timer) (v : Byte) : (writeTimerData t v s).ops = s.ops := rfl
@[simp] theorem writeTimerData_bus (t : Timer) (v : Byte) : (writeTimerData t v s).bus = s.bus := rfl
@[simp] theorem writeTimerData_draws (t : Timer) (v : Byte) : (writeTimerData t v s).draws = s.draws := rfl
@[simp] theorem writeTimerData_faults (t : Timer) (v : Byte) : (writeTimerData t v s).faults = s.faults := rfl
@[simp] theorem writeTimerData_refused (t : Timer) (v : Byte) : (writeTimerData t v s).refused = s.refused := rfl

@[simp] theorem setAcc_params (n : Nat) : (setAcc n s).params = s.params := rfl
@[simp] theorem setAcc_cpu (n : Nat) : (setAcc n s).cpu = s.cpu := rfl
@[simp] theorem setAcc_arb (n : Nat) : (setAcc n s).arb = s.arb := rfl
@[simp] theorem setAcc_ym (n : Nat) : (setAcc n s).ym = s.ym := rfl
@[simp] theorem setAcc_wd (n : Nat) : (setAcc n s).wd = s.wd := rfl
@[simp] theorem setAcc_disk (n : Nat) : (setAcc n s).disk = s.disk := rfl
@[simp] theorem setAcc_acia (n : Nat) : (setAcc n s).acia = s.acia := rfl
@[simp] theorem setAcc_ikbd (n : Nat) : (setAcc n s).ikbd = s.ikbd := rfl
@[simp] theorem setAcc_video (n : Nat) : (setAcc n s).video = s.video := rfl
@[simp] theorem setAcc_loop (n : Nat) : (setAcc n s).loop = s.loop := rfl
@[simp] theorem setAcc_mem (n : Nat) : (setAcc n s).mem = s.mem := rfl
@[simp] theorem setAcc_ramGen (n : Nat) : (setAcc n s).ramGen = s.ramGen := rfl
@[simp] theorem setAcc_host (n : Nat) : (setAcc n s).host = s.host := rfl
@[simp] theorem setAcc_ops (n : Nat) : (setAcc n s).ops = s.ops := rfl
@[simp] theorem setAcc_bus (n : Nat) : (setAcc n s).bus = s.bus := rfl
@[simp] theorem setAcc_draws (n : Nat) : (setAcc n s).draws = s.draws := rfl
@[simp] theorem setAcc_faults (n : Nat) : (setAcc n s).faults = s.faults := rfl
@[simp] theorem setAcc_refused (n : Nat) : (setAcc n s).refused = s.refused := rfl

@[simp] theorem setYm_params (y : Ym) : (setYm y s).params = s.params := rfl
@[simp] theorem setYm_cpu (y : Ym) : (setYm y s).cpu = s.cpu := rfl
@[simp] theorem setYm_arb (y : Ym) : (setYm y s).arb = s.arb := rfl
@[simp] theorem setYm_mfp (y : Ym) : (setYm y s).mfp = s.mfp := rfl
@[simp] theorem setYm_wd (y : Ym) : (setYm y s).wd = s.wd := rfl
@[simp] theorem setYm_disk (y : Ym) : (setYm y s).disk = s.disk := rfl
@[simp] theorem setYm_acia (y : Ym) : (setYm y s).acia = s.acia := rfl
@[simp] theorem setYm_ikbd (y : Ym) : (setYm y s).ikbd = s.ikbd := rfl
@[simp] theorem setYm_video (y : Ym) : (setYm y s).video = s.video := rfl
@[simp] theorem setYm_loop (y : Ym) : (setYm y s).loop = s.loop := rfl
@[simp] theorem setYm_mem (y : Ym) : (setYm y s).mem = s.mem := rfl
@[simp] theorem setYm_ramGen (y : Ym) : (setYm y s).ramGen = s.ramGen := rfl
@[simp] theorem setYm_host (y : Ym) : (setYm y s).host = s.host := rfl
@[simp] theorem setYm_ops (y : Ym) : (setYm y s).ops = s.ops := rfl
@[simp] theorem setYm_bus (y : Ym) : (setYm y s).bus = s.bus := rfl
@[simp] theorem setYm_draws (y : Ym) : (setYm y s).draws = s.draws := rfl
@[simp] theorem setYm_faults (y : Ym) : (setYm y s).faults = s.faults := rfl
@[simp] theorem setYm_refused (y : Ym) : (setYm y s).refused = s.refused := rfl

@[simp] theorem ymSelect_params (v : Byte) : (ymSelect v s).params = s.params := rfl
@[simp] theorem ymSelect_cpu (v : Byte) : (ymSelect v s).cpu = s.cpu := rfl
@[simp] theorem ymSelect_arb (v : Byte) : (ymSelect v s).arb = s.arb := rfl
@[simp] theorem ymSelect_mfp (v : Byte) : (ymSelect v s).mfp = s.mfp := rfl
@[simp] theorem ymSelect_wd (v : Byte) : (ymSelect v s).wd = s.wd := rfl
@[simp] theorem ymSelect_disk (v : Byte) : (ymSelect v s).disk = s.disk := rfl
@[simp] theorem ymSelect_acia (v : Byte) : (ymSelect v s).acia = s.acia := rfl
@[simp] theorem ymSelect_ikbd (v : Byte) : (ymSelect v s).ikbd = s.ikbd := rfl
@[simp] theorem ymSelect_video (v : Byte) : (ymSelect v s).video = s.video := rfl
@[simp] theorem ymSelect_loop (v : Byte) : (ymSelect v s).loop = s.loop := rfl
@[simp] theorem ymSelect_mem (v : Byte) : (ymSelect v s).mem = s.mem := rfl
@[simp] theorem ymSelect_ramGen (v : Byte) : (ymSelect v s).ramGen = s.ramGen := rfl
@[simp] theorem ymSelect_host (v : Byte) : (ymSelect v s).host = s.host := rfl
@[simp] theorem ymSelect_ops (v : Byte) : (ymSelect v s).ops = s.ops := rfl
@[simp] theorem ymSelect_bus (v : Byte) : (ymSelect v s).bus = s.bus := rfl
@[simp] theorem ymSelect_draws (v : Byte) : (ymSelect v s).draws = s.draws := rfl
@[simp] theorem ymSelect_faults (v : Byte) : (ymSelect v s).faults = s.faults := rfl
@[simp] theorem ymSelect_refused (v : Byte) : (ymSelect v s).refused = s.refused := rfl

@[simp] theorem envRestart_params : (envRestart s).params = s.params := rfl
@[simp] theorem envRestart_cpu : (envRestart s).cpu = s.cpu := rfl
@[simp] theorem envRestart_arb : (envRestart s).arb = s.arb := rfl
@[simp] theorem envRestart_mfp : (envRestart s).mfp = s.mfp := rfl
@[simp] theorem envRestart_wd : (envRestart s).wd = s.wd := rfl
@[simp] theorem envRestart_disk : (envRestart s).disk = s.disk := rfl
@[simp] theorem envRestart_acia : (envRestart s).acia = s.acia := rfl
@[simp] theorem envRestart_ikbd : (envRestart s).ikbd = s.ikbd := rfl
@[simp] theorem envRestart_video : (envRestart s).video = s.video := rfl
@[simp] theorem envRestart_loop : (envRestart s).loop = s.loop := rfl
@[simp] theorem envRestart_mem : (envRestart s).mem = s.mem := rfl
@[simp] theorem envRestart_ramGen : (envRestart s).ramGen = s.ramGen := rfl
@[simp] theorem envRestart_host : (envRestart s).host = s.host := rfl
@[simp] theorem envRestart_ops : (envRestart s).ops = s.ops := rfl
@[simp] theorem envRestart_bus : (envRestart s).bus = s.bus := rfl
@[simp] theorem envRestart_draws : (envRestart s).draws = s.draws := rfl
@[simp] theorem envRestart_faults : (envRestart s).faults = s.faults := rfl
@[simp] theorem envRestart_refused : (envRestart s).refused = s.refused := rfl

@[simp] theorem portAWrite_params (v : Byte) : (portAWrite v s).params = s.params := rfl
@[simp] theorem portAWrite_cpu (v : Byte) : (portAWrite v s).cpu = s.cpu := rfl
@[simp] theorem portAWrite_arb (v : Byte) : (portAWrite v s).arb = s.arb := rfl
@[simp] theorem portAWrite_mfp (v : Byte) : (portAWrite v s).mfp = s.mfp := rfl
@[simp] theorem portAWrite_ym (v : Byte) : (portAWrite v s).ym = s.ym := rfl
@[simp] theorem portAWrite_disk (v : Byte) : (portAWrite v s).disk = s.disk := rfl
@[simp] theorem portAWrite_acia (v : Byte) : (portAWrite v s).acia = s.acia := rfl
@[simp] theorem portAWrite_ikbd (v : Byte) : (portAWrite v s).ikbd = s.ikbd := rfl
@[simp] theorem portAWrite_video (v : Byte) : (portAWrite v s).video = s.video := rfl
@[simp] theorem portAWrite_loop (v : Byte) : (portAWrite v s).loop = s.loop := rfl
@[simp] theorem portAWrite_mem (v : Byte) : (portAWrite v s).mem = s.mem := rfl
@[simp] theorem portAWrite_ramGen (v : Byte) : (portAWrite v s).ramGen = s.ramGen := rfl
@[simp] theorem portAWrite_host (v : Byte) : (portAWrite v s).host = s.host := rfl
@[simp] theorem portAWrite_ops (v : Byte) : (portAWrite v s).ops = s.ops := rfl
@[simp] theorem portAWrite_bus (v : Byte) : (portAWrite v s).bus = s.bus := rfl
@[simp] theorem portAWrite_draws (v : Byte) : (portAWrite v s).draws = s.draws := rfl
@[simp] theorem portAWrite_faults (v : Byte) : (portAWrite v s).faults = s.faults := rfl
@[simp] theorem portAWrite_refused (v : Byte) : (portAWrite v s).refused = s.refused := rfl

@[simp] theorem ymSync_params (c : Nat) : (ymSync c s).params = s.params := rfl
@[simp] theorem ymSync_cpu (c : Nat) : (ymSync c s).cpu = s.cpu := rfl
@[simp] theorem ymSync_arb (c : Nat) : (ymSync c s).arb = s.arb := rfl
@[simp] theorem ymSync_mfp (c : Nat) : (ymSync c s).mfp = s.mfp := rfl
@[simp] theorem ymSync_wd (c : Nat) : (ymSync c s).wd = s.wd := rfl
@[simp] theorem ymSync_disk (c : Nat) : (ymSync c s).disk = s.disk := rfl
@[simp] theorem ymSync_acia (c : Nat) : (ymSync c s).acia = s.acia := rfl
@[simp] theorem ymSync_ikbd (c : Nat) : (ymSync c s).ikbd = s.ikbd := rfl
@[simp] theorem ymSync_video (c : Nat) : (ymSync c s).video = s.video := rfl
@[simp] theorem ymSync_loop (c : Nat) : (ymSync c s).loop = s.loop := rfl
@[simp] theorem ymSync_mem (c : Nat) : (ymSync c s).mem = s.mem := rfl
@[simp] theorem ymSync_ramGen (c : Nat) : (ymSync c s).ramGen = s.ramGen := rfl
@[simp] theorem ymSync_host (c : Nat) : (ymSync c s).host = s.host := rfl
@[simp] theorem ymSync_ops (c : Nat) : (ymSync c s).ops = s.ops := rfl
@[simp] theorem ymSync_bus (c : Nat) : (ymSync c s).bus = s.bus := rfl
@[simp] theorem ymSync_draws (c : Nat) : (ymSync c s).draws = s.draws := rfl
@[simp] theorem ymSync_faults (c : Nat) : (ymSync c s).faults = s.faults := rfl
@[simp] theorem ymSync_refused (c : Nat) : (ymSync c s).refused = s.refused := rfl

@[simp] theorem audioPull_params (n : Nat) : (audioPull n s).params = s.params := rfl
@[simp] theorem audioPull_cpu (n : Nat) : (audioPull n s).cpu = s.cpu := rfl
@[simp] theorem audioPull_arb (n : Nat) : (audioPull n s).arb = s.arb := rfl
@[simp] theorem audioPull_mfp (n : Nat) : (audioPull n s).mfp = s.mfp := rfl
@[simp] theorem audioPull_wd (n : Nat) : (audioPull n s).wd = s.wd := rfl
@[simp] theorem audioPull_disk (n : Nat) : (audioPull n s).disk = s.disk := rfl
@[simp] theorem audioPull_acia (n : Nat) : (audioPull n s).acia = s.acia := rfl
@[simp] theorem audioPull_ikbd (n : Nat) : (audioPull n s).ikbd = s.ikbd := rfl
@[simp] theorem audioPull_video (n : Nat) : (audioPull n s).video = s.video := rfl
@[simp] theorem audioPull_loop (n : Nat) : (audioPull n s).loop = s.loop := rfl
@[simp] theorem audioPull_mem (n : Nat) : (audioPull n s).mem = s.mem := rfl
@[simp] theorem audioPull_ramGen (n : Nat) : (audioPull n s).ramGen = s.ramGen := rfl
@[simp] theorem audioPull_ops (n : Nat) : (audioPull n s).ops = s.ops := rfl
@[simp] theorem audioPull_bus (n : Nat) : (audioPull n s).bus = s.bus := rfl
@[simp] theorem audioPull_draws (n : Nat) : (audioPull n s).draws = s.draws := rfl
@[simp] theorem audioPull_faults (n : Nat) : (audioPull n s).faults = s.faults := rfl
@[simp] theorem audioPull_refused (n : Nat) : (audioPull n s).refused = s.refused := rfl

@[simp] theorem setWd_params (w : Wd) : (setWd w s).params = s.params := rfl
@[simp] theorem setWd_cpu (w : Wd) : (setWd w s).cpu = s.cpu := rfl
@[simp] theorem setWd_arb (w : Wd) : (setWd w s).arb = s.arb := rfl
@[simp] theorem setWd_mfp (w : Wd) : (setWd w s).mfp = s.mfp := rfl
@[simp] theorem setWd_ym (w : Wd) : (setWd w s).ym = s.ym := rfl
@[simp] theorem setWd_disk (w : Wd) : (setWd w s).disk = s.disk := rfl
@[simp] theorem setWd_acia (w : Wd) : (setWd w s).acia = s.acia := rfl
@[simp] theorem setWd_ikbd (w : Wd) : (setWd w s).ikbd = s.ikbd := rfl
@[simp] theorem setWd_video (w : Wd) : (setWd w s).video = s.video := rfl
@[simp] theorem setWd_loop (w : Wd) : (setWd w s).loop = s.loop := rfl
@[simp] theorem setWd_mem (w : Wd) : (setWd w s).mem = s.mem := rfl
@[simp] theorem setWd_ramGen (w : Wd) : (setWd w s).ramGen = s.ramGen := rfl
@[simp] theorem setWd_host (w : Wd) : (setWd w s).host = s.host := rfl
@[simp] theorem setWd_ops (w : Wd) : (setWd w s).ops = s.ops := rfl
@[simp] theorem setWd_bus (w : Wd) : (setWd w s).bus = s.bus := rfl
@[simp] theorem setWd_draws (w : Wd) : (setWd w s).draws = s.draws := rfl
@[simp] theorem setWd_faults (w : Wd) : (setWd w s).faults = s.faults := rfl
@[simp] theorem setWd_refused (w : Wd) : (setWd w s).refused = s.refused := rfl

@[simp] theorem setMulti_params (b : Bool) : (setMulti b s).params = s.params := rfl
@[simp] theorem setMulti_cpu (b : Bool) : (setMulti b s).cpu = s.cpu := rfl
@[simp] theorem setMulti_arb (b : Bool) : (setMulti b s).arb = s.arb := rfl
@[simp] theorem setMulti_mfp (b : Bool) : (setMulti b s).mfp = s.mfp := rfl
@[simp] theorem setMulti_ym (b : Bool) : (setMulti b s).ym = s.ym := rfl
@[simp] theorem setMulti_disk (b : Bool) : (setMulti b s).disk = s.disk := rfl
@[simp] theorem setMulti_acia (b : Bool) : (setMulti b s).acia = s.acia := rfl
@[simp] theorem setMulti_ikbd (b : Bool) : (setMulti b s).ikbd = s.ikbd := rfl
@[simp] theorem setMulti_video (b : Bool) : (setMulti b s).video = s.video := rfl
@[simp] theorem setMulti_loop (b : Bool) : (setMulti b s).loop = s.loop := rfl
@[simp] theorem setMulti_mem (b : Bool) : (setMulti b s).mem = s.mem := rfl
@[simp] theorem setMulti_ramGen (b : Bool) : (setMulti b s).ramGen = s.ramGen := rfl
@[simp] theorem setMulti_host (b : Bool) : (setMulti b s).host = s.host := rfl
@[simp] theorem setMulti_ops (b : Bool) : (setMulti b s).ops = s.ops := rfl
@[simp] theorem setMulti_bus (b : Bool) : (setMulti b s).bus = s.bus := rfl
@[simp] theorem setMulti_draws (b : Bool) : (setMulti b s).draws = s.draws := rfl
@[simp] theorem setMulti_faults (b : Bool) : (setMulti b s).faults = s.faults := rfl
@[simp] theorem setMulti_refused (b : Bool) : (setMulti b s).refused = s.refused := rfl

@[simp] theorem nextSector_params (n : Nat) : (nextSector n s).params = s.params := rfl
@[simp] theorem nextSector_cpu (n : Nat) : (nextSector n s).cpu = s.cpu := rfl
@[simp] theorem nextSector_arb (n : Nat) : (nextSector n s).arb = s.arb := rfl
@[simp] theorem nextSector_mfp (n : Nat) : (nextSector n s).mfp = s.mfp := rfl
@[simp] theorem nextSector_ym (n : Nat) : (nextSector n s).ym = s.ym := rfl
@[simp] theorem nextSector_disk (n : Nat) : (nextSector n s).disk = s.disk := rfl
@[simp] theorem nextSector_acia (n : Nat) : (nextSector n s).acia = s.acia := rfl
@[simp] theorem nextSector_ikbd (n : Nat) : (nextSector n s).ikbd = s.ikbd := rfl
@[simp] theorem nextSector_video (n : Nat) : (nextSector n s).video = s.video := rfl
@[simp] theorem nextSector_loop (n : Nat) : (nextSector n s).loop = s.loop := rfl
@[simp] theorem nextSector_mem (n : Nat) : (nextSector n s).mem = s.mem := rfl
@[simp] theorem nextSector_ramGen (n : Nat) : (nextSector n s).ramGen = s.ramGen := rfl
@[simp] theorem nextSector_host (n : Nat) : (nextSector n s).host = s.host := rfl
@[simp] theorem nextSector_ops (n : Nat) : (nextSector n s).ops = s.ops := rfl
@[simp] theorem nextSector_bus (n : Nat) : (nextSector n s).bus = s.bus := rfl
@[simp] theorem nextSector_draws (n : Nat) : (nextSector n s).draws = s.draws := rfl
@[simp] theorem nextSector_faults (n : Nat) : (nextSector n s).faults = s.faults := rfl
@[simp] theorem nextSector_refused (n : Nat) : (nextSector n s).refused = s.refused := rfl

@[simp] theorem dmaModeWrite_params (m : Half) : (dmaModeWrite m s).params = s.params := rfl
@[simp] theorem dmaModeWrite_cpu (m : Half) : (dmaModeWrite m s).cpu = s.cpu := rfl
@[simp] theorem dmaModeWrite_arb (m : Half) : (dmaModeWrite m s).arb = s.arb := rfl
@[simp] theorem dmaModeWrite_mfp (m : Half) : (dmaModeWrite m s).mfp = s.mfp := rfl
@[simp] theorem dmaModeWrite_ym (m : Half) : (dmaModeWrite m s).ym = s.ym := rfl
@[simp] theorem dmaModeWrite_disk (m : Half) : (dmaModeWrite m s).disk = s.disk := rfl
@[simp] theorem dmaModeWrite_acia (m : Half) : (dmaModeWrite m s).acia = s.acia := rfl
@[simp] theorem dmaModeWrite_ikbd (m : Half) : (dmaModeWrite m s).ikbd = s.ikbd := rfl
@[simp] theorem dmaModeWrite_video (m : Half) : (dmaModeWrite m s).video = s.video := rfl
@[simp] theorem dmaModeWrite_loop (m : Half) : (dmaModeWrite m s).loop = s.loop := rfl
@[simp] theorem dmaModeWrite_mem (m : Half) : (dmaModeWrite m s).mem = s.mem := rfl
@[simp] theorem dmaModeWrite_ramGen (m : Half) : (dmaModeWrite m s).ramGen = s.ramGen := rfl
@[simp] theorem dmaModeWrite_host (m : Half) : (dmaModeWrite m s).host = s.host := rfl
@[simp] theorem dmaModeWrite_ops (m : Half) : (dmaModeWrite m s).ops = s.ops := rfl
@[simp] theorem dmaModeWrite_bus (m : Half) : (dmaModeWrite m s).bus = s.bus := rfl
@[simp] theorem dmaModeWrite_draws (m : Half) : (dmaModeWrite m s).draws = s.draws := rfl
@[simp] theorem dmaModeWrite_faults (m : Half) : (dmaModeWrite m s).faults = s.faults := rfl
@[simp] theorem dmaModeWrite_refused (m : Half) : (dmaModeWrite m s).refused = s.refused := rfl

@[simp] theorem dmaAddrWrite_params (a : Addr) : (dmaAddrWrite a s).params = s.params := rfl
@[simp] theorem dmaAddrWrite_cpu (a : Addr) : (dmaAddrWrite a s).cpu = s.cpu := rfl
@[simp] theorem dmaAddrWrite_arb (a : Addr) : (dmaAddrWrite a s).arb = s.arb := rfl
@[simp] theorem dmaAddrWrite_mfp (a : Addr) : (dmaAddrWrite a s).mfp = s.mfp := rfl
@[simp] theorem dmaAddrWrite_ym (a : Addr) : (dmaAddrWrite a s).ym = s.ym := rfl
@[simp] theorem dmaAddrWrite_disk (a : Addr) : (dmaAddrWrite a s).disk = s.disk := rfl
@[simp] theorem dmaAddrWrite_acia (a : Addr) : (dmaAddrWrite a s).acia = s.acia := rfl
@[simp] theorem dmaAddrWrite_ikbd (a : Addr) : (dmaAddrWrite a s).ikbd = s.ikbd := rfl
@[simp] theorem dmaAddrWrite_video (a : Addr) : (dmaAddrWrite a s).video = s.video := rfl
@[simp] theorem dmaAddrWrite_loop (a : Addr) : (dmaAddrWrite a s).loop = s.loop := rfl
@[simp] theorem dmaAddrWrite_mem (a : Addr) : (dmaAddrWrite a s).mem = s.mem := rfl
@[simp] theorem dmaAddrWrite_ramGen (a : Addr) : (dmaAddrWrite a s).ramGen = s.ramGen := rfl
@[simp] theorem dmaAddrWrite_host (a : Addr) : (dmaAddrWrite a s).host = s.host := rfl
@[simp] theorem dmaAddrWrite_ops (a : Addr) : (dmaAddrWrite a s).ops = s.ops := rfl
@[simp] theorem dmaAddrWrite_bus (a : Addr) : (dmaAddrWrite a s).bus = s.bus := rfl
@[simp] theorem dmaAddrWrite_draws (a : Addr) : (dmaAddrWrite a s).draws = s.draws := rfl
@[simp] theorem dmaAddrWrite_faults (a : Addr) : (dmaAddrWrite a s).faults = s.faults := rfl
@[simp] theorem dmaAddrWrite_refused (a : Addr) : (dmaAddrWrite a s).refused = s.refused := rfl

@[simp] theorem havocRegs_params : (havocRegs s).params = s.params := rfl
@[simp] theorem havocRegs_cpu : (havocRegs s).cpu = s.cpu := rfl
@[simp] theorem havocRegs_arb : (havocRegs s).arb = s.arb := rfl
@[simp] theorem havocRegs_mfp : (havocRegs s).mfp = s.mfp := rfl
@[simp] theorem havocRegs_ym : (havocRegs s).ym = s.ym := rfl
@[simp] theorem havocRegs_disk : (havocRegs s).disk = s.disk := rfl
@[simp] theorem havocRegs_acia : (havocRegs s).acia = s.acia := rfl
@[simp] theorem havocRegs_ikbd : (havocRegs s).ikbd = s.ikbd := rfl
@[simp] theorem havocRegs_video : (havocRegs s).video = s.video := rfl
@[simp] theorem havocRegs_loop : (havocRegs s).loop = s.loop := rfl
@[simp] theorem havocRegs_mem : (havocRegs s).mem = s.mem := rfl
@[simp] theorem havocRegs_ramGen : (havocRegs s).ramGen = s.ramGen := rfl
@[simp] theorem havocRegs_host : (havocRegs s).host = s.host := rfl
@[simp] theorem havocRegs_ops : (havocRegs s).ops = s.ops := rfl
@[simp] theorem havocRegs_bus : (havocRegs s).bus = s.bus := rfl
@[simp] theorem havocRegs_faults : (havocRegs s).faults = s.faults := rfl
@[simp] theorem havocRegs_refused : (havocRegs s).refused = s.refused := rfl

@[simp] theorem havocRam_params : (havocRam s).params = s.params := rfl
@[simp] theorem havocRam_cpu : (havocRam s).cpu = s.cpu := rfl
@[simp] theorem havocRam_arb : (havocRam s).arb = s.arb := rfl
@[simp] theorem havocRam_mfp : (havocRam s).mfp = s.mfp := rfl
@[simp] theorem havocRam_ym : (havocRam s).ym = s.ym := rfl
@[simp] theorem havocRam_wd : (havocRam s).wd = s.wd := rfl
@[simp] theorem havocRam_disk : (havocRam s).disk = s.disk := rfl
@[simp] theorem havocRam_acia : (havocRam s).acia = s.acia := rfl
@[simp] theorem havocRam_ikbd : (havocRam s).ikbd = s.ikbd := rfl
@[simp] theorem havocRam_video : (havocRam s).video = s.video := rfl
@[simp] theorem havocRam_loop : (havocRam s).loop = s.loop := rfl
@[simp] theorem havocRam_host : (havocRam s).host = s.host := rfl
@[simp] theorem havocRam_ops : (havocRam s).ops = s.ops := rfl
@[simp] theorem havocRam_bus : (havocRam s).bus = s.bus := rfl
@[simp] theorem havocRam_draws : (havocRam s).draws = s.draws := rfl
@[simp] theorem havocRam_faults : (havocRam s).faults = s.faults := rfl
@[simp] theorem havocRam_refused : (havocRam s).refused = s.refused := rfl

@[simp] theorem pushQueue_params (bs : List Byte) : (pushQueue bs s).params = s.params := rfl
@[simp] theorem pushQueue_cpu (bs : List Byte) : (pushQueue bs s).cpu = s.cpu := rfl
@[simp] theorem pushQueue_arb (bs : List Byte) : (pushQueue bs s).arb = s.arb := rfl
@[simp] theorem pushQueue_mfp (bs : List Byte) : (pushQueue bs s).mfp = s.mfp := rfl
@[simp] theorem pushQueue_ym (bs : List Byte) : (pushQueue bs s).ym = s.ym := rfl
@[simp] theorem pushQueue_wd (bs : List Byte) : (pushQueue bs s).wd = s.wd := rfl
@[simp] theorem pushQueue_disk (bs : List Byte) : (pushQueue bs s).disk = s.disk := rfl
@[simp] theorem pushQueue_ikbd (bs : List Byte) : (pushQueue bs s).ikbd = s.ikbd := rfl
@[simp] theorem pushQueue_video (bs : List Byte) : (pushQueue bs s).video = s.video := rfl
@[simp] theorem pushQueue_loop (bs : List Byte) : (pushQueue bs s).loop = s.loop := rfl
@[simp] theorem pushQueue_mem (bs : List Byte) : (pushQueue bs s).mem = s.mem := rfl
@[simp] theorem pushQueue_ramGen (bs : List Byte) : (pushQueue bs s).ramGen = s.ramGen := rfl
@[simp] theorem pushQueue_host (bs : List Byte) : (pushQueue bs s).host = s.host := rfl
@[simp] theorem pushQueue_ops (bs : List Byte) : (pushQueue bs s).ops = s.ops := rfl
@[simp] theorem pushQueue_bus (bs : List Byte) : (pushQueue bs s).bus = s.bus := rfl
@[simp] theorem pushQueue_draws (bs : List Byte) : (pushQueue bs s).draws = s.draws := rfl
@[simp] theorem pushQueue_faults (bs : List Byte) : (pushQueue bs s).faults = s.faults := rfl
@[simp] theorem pushQueue_refused (bs : List Byte) : (pushQueue bs s).refused = s.refused := rfl

@[simp] theorem setMouse_params (b : Bool) : (setMouse b s).params = s.params := rfl
@[simp] theorem setMouse_cpu (b : Bool) : (setMouse b s).cpu = s.cpu := rfl
@[simp] theorem setMouse_arb (b : Bool) : (setMouse b s).arb = s.arb := rfl
@[simp] theorem setMouse_mfp (b : Bool) : (setMouse b s).mfp = s.mfp := rfl
@[simp] theorem setMouse_ym (b : Bool) : (setMouse b s).ym = s.ym := rfl
@[simp] theorem setMouse_wd (b : Bool) : (setMouse b s).wd = s.wd := rfl
@[simp] theorem setMouse_disk (b : Bool) : (setMouse b s).disk = s.disk := rfl
@[simp] theorem setMouse_acia (b : Bool) : (setMouse b s).acia = s.acia := rfl
@[simp] theorem setMouse_video (b : Bool) : (setMouse b s).video = s.video := rfl
@[simp] theorem setMouse_loop (b : Bool) : (setMouse b s).loop = s.loop := rfl
@[simp] theorem setMouse_mem (b : Bool) : (setMouse b s).mem = s.mem := rfl
@[simp] theorem setMouse_ramGen (b : Bool) : (setMouse b s).ramGen = s.ramGen := rfl
@[simp] theorem setMouse_host (b : Bool) : (setMouse b s).host = s.host := rfl
@[simp] theorem setMouse_ops (b : Bool) : (setMouse b s).ops = s.ops := rfl
@[simp] theorem setMouse_bus (b : Bool) : (setMouse b s).bus = s.bus := rfl
@[simp] theorem setMouse_draws (b : Bool) : (setMouse b s).draws = s.draws := rfl
@[simp] theorem setMouse_faults (b : Bool) : (setMouse b s).faults = s.faults := rfl
@[simp] theorem setMouse_refused (b : Bool) : (setMouse b s).refused = s.refused := rfl

@[simp] theorem setJoy_params (b : Bool) : (setJoy b s).params = s.params := rfl
@[simp] theorem setJoy_cpu (b : Bool) : (setJoy b s).cpu = s.cpu := rfl
@[simp] theorem setJoy_arb (b : Bool) : (setJoy b s).arb = s.arb := rfl
@[simp] theorem setJoy_mfp (b : Bool) : (setJoy b s).mfp = s.mfp := rfl
@[simp] theorem setJoy_ym (b : Bool) : (setJoy b s).ym = s.ym := rfl
@[simp] theorem setJoy_wd (b : Bool) : (setJoy b s).wd = s.wd := rfl
@[simp] theorem setJoy_disk (b : Bool) : (setJoy b s).disk = s.disk := rfl
@[simp] theorem setJoy_acia (b : Bool) : (setJoy b s).acia = s.acia := rfl
@[simp] theorem setJoy_video (b : Bool) : (setJoy b s).video = s.video := rfl
@[simp] theorem setJoy_loop (b : Bool) : (setJoy b s).loop = s.loop := rfl
@[simp] theorem setJoy_mem (b : Bool) : (setJoy b s).mem = s.mem := rfl
@[simp] theorem setJoy_ramGen (b : Bool) : (setJoy b s).ramGen = s.ramGen := rfl
@[simp] theorem setJoy_host (b : Bool) : (setJoy b s).host = s.host := rfl
@[simp] theorem setJoy_ops (b : Bool) : (setJoy b s).ops = s.ops := rfl
@[simp] theorem setJoy_bus (b : Bool) : (setJoy b s).bus = s.bus := rfl
@[simp] theorem setJoy_draws (b : Bool) : (setJoy b s).draws = s.draws := rfl
@[simp] theorem setJoy_faults (b : Bool) : (setJoy b s).faults = s.faults := rfl
@[simp] theorem setJoy_refused (b : Bool) : (setJoy b s).refused = s.refused := rfl

@[simp] theorem clearCmd_params : (clearCmd s).params = s.params := rfl
@[simp] theorem clearCmd_cpu : (clearCmd s).cpu = s.cpu := rfl
@[simp] theorem clearCmd_arb : (clearCmd s).arb = s.arb := rfl
@[simp] theorem clearCmd_mfp : (clearCmd s).mfp = s.mfp := rfl
@[simp] theorem clearCmd_ym : (clearCmd s).ym = s.ym := rfl
@[simp] theorem clearCmd_wd : (clearCmd s).wd = s.wd := rfl
@[simp] theorem clearCmd_disk : (clearCmd s).disk = s.disk := rfl
@[simp] theorem clearCmd_acia : (clearCmd s).acia = s.acia := rfl
@[simp] theorem clearCmd_video : (clearCmd s).video = s.video := rfl
@[simp] theorem clearCmd_loop : (clearCmd s).loop = s.loop := rfl
@[simp] theorem clearCmd_mem : (clearCmd s).mem = s.mem := rfl
@[simp] theorem clearCmd_ramGen : (clearCmd s).ramGen = s.ramGen := rfl
@[simp] theorem clearCmd_host : (clearCmd s).host = s.host := rfl
@[simp] theorem clearCmd_ops : (clearCmd s).ops = s.ops := rfl
@[simp] theorem clearCmd_bus : (clearCmd s).bus = s.bus := rfl
@[simp] theorem clearCmd_draws : (clearCmd s).draws = s.draws := rfl
@[simp] theorem clearCmd_faults : (clearCmd s).faults = s.faults := rfl
@[simp] theorem clearCmd_refused : (clearCmd s).refused = s.refused := rfl

@[simp] theorem setRow_params (row : Nat) (ws : List Word) : (setRow row ws s).params = s.params := rfl
@[simp] theorem setRow_cpu (row : Nat) (ws : List Word) : (setRow row ws s).cpu = s.cpu := rfl
@[simp] theorem setRow_arb (row : Nat) (ws : List Word) : (setRow row ws s).arb = s.arb := rfl
@[simp] theorem setRow_mfp (row : Nat) (ws : List Word) : (setRow row ws s).mfp = s.mfp := rfl
@[simp] theorem setRow_ym (row : Nat) (ws : List Word) : (setRow row ws s).ym = s.ym := rfl
@[simp] theorem setRow_wd (row : Nat) (ws : List Word) : (setRow row ws s).wd = s.wd := rfl
@[simp] theorem setRow_disk (row : Nat) (ws : List Word) : (setRow row ws s).disk = s.disk := rfl
@[simp] theorem setRow_acia (row : Nat) (ws : List Word) : (setRow row ws s).acia = s.acia := rfl
@[simp] theorem setRow_ikbd (row : Nat) (ws : List Word) : (setRow row ws s).ikbd = s.ikbd := rfl
@[simp] theorem setRow_loop (row : Nat) (ws : List Word) : (setRow row ws s).loop = s.loop := rfl
@[simp] theorem setRow_mem (row : Nat) (ws : List Word) : (setRow row ws s).mem = s.mem := rfl
@[simp] theorem setRow_ramGen (row : Nat) (ws : List Word) : (setRow row ws s).ramGen = s.ramGen := rfl
@[simp] theorem setRow_host (row : Nat) (ws : List Word) : (setRow row ws s).host = s.host := rfl
@[simp] theorem setRow_ops (row : Nat) (ws : List Word) : (setRow row ws s).ops = s.ops := rfl
@[simp] theorem setRow_bus (row : Nat) (ws : List Word) : (setRow row ws s).bus = s.bus := rfl
@[simp] theorem setRow_draws (row : Nat) (ws : List Word) : (setRow row ws s).draws = s.draws := rfl
@[simp] theorem setRow_faults (row : Nat) (ws : List Word) : (setRow row ws s).faults = s.faults := rfl
@[simp] theorem setRow_refused (row : Nat) (ws : List Word) : (setRow row ws s).refused = s.refused := rfl

@[simp] theorem setVideoCounter_params (vc : Addr) : (setVideoCounter vc s).params = s.params := rfl
@[simp] theorem setVideoCounter_cpu (vc : Addr) : (setVideoCounter vc s).cpu = s.cpu := rfl
@[simp] theorem setVideoCounter_arb (vc : Addr) : (setVideoCounter vc s).arb = s.arb := rfl
@[simp] theorem setVideoCounter_mfp (vc : Addr) : (setVideoCounter vc s).mfp = s.mfp := rfl
@[simp] theorem setVideoCounter_ym (vc : Addr) : (setVideoCounter vc s).ym = s.ym := rfl
@[simp] theorem setVideoCounter_wd (vc : Addr) : (setVideoCounter vc s).wd = s.wd := rfl
@[simp] theorem setVideoCounter_disk (vc : Addr) : (setVideoCounter vc s).disk = s.disk := rfl
@[simp] theorem setVideoCounter_acia (vc : Addr) : (setVideoCounter vc s).acia = s.acia := rfl
@[simp] theorem setVideoCounter_ikbd (vc : Addr) : (setVideoCounter vc s).ikbd = s.ikbd := rfl
@[simp] theorem setVideoCounter_loop (vc : Addr) : (setVideoCounter vc s).loop = s.loop := rfl
@[simp] theorem setVideoCounter_mem (vc : Addr) : (setVideoCounter vc s).mem = s.mem := rfl
@[simp] theorem setVideoCounter_ramGen (vc : Addr) : (setVideoCounter vc s).ramGen = s.ramGen := rfl
@[simp] theorem setVideoCounter_host (vc : Addr) : (setVideoCounter vc s).host = s.host := rfl
@[simp] theorem setVideoCounter_ops (vc : Addr) : (setVideoCounter vc s).ops = s.ops := rfl
@[simp] theorem setVideoCounter_bus (vc : Addr) : (setVideoCounter vc s).bus = s.bus := rfl
@[simp] theorem setVideoCounter_draws (vc : Addr) : (setVideoCounter vc s).draws = s.draws := rfl
@[simp] theorem setVideoCounter_faults (vc : Addr) : (setVideoCounter vc s).faults = s.faults := rfl
@[simp] theorem setVideoCounter_refused (vc : Addr) : (setVideoCounter vc s).refused = s.refused := rfl

@[simp] theorem videoLatch_params : (videoLatch s).params = s.params := rfl
@[simp] theorem videoLatch_cpu : (videoLatch s).cpu = s.cpu := rfl
@[simp] theorem videoLatch_arb : (videoLatch s).arb = s.arb := rfl
@[simp] theorem videoLatch_mfp : (videoLatch s).mfp = s.mfp := rfl
@[simp] theorem videoLatch_ym : (videoLatch s).ym = s.ym := rfl
@[simp] theorem videoLatch_wd : (videoLatch s).wd = s.wd := rfl
@[simp] theorem videoLatch_disk : (videoLatch s).disk = s.disk := rfl
@[simp] theorem videoLatch_acia : (videoLatch s).acia = s.acia := rfl
@[simp] theorem videoLatch_ikbd : (videoLatch s).ikbd = s.ikbd := rfl
@[simp] theorem videoLatch_loop : (videoLatch s).loop = s.loop := rfl
@[simp] theorem videoLatch_mem : (videoLatch s).mem = s.mem := rfl
@[simp] theorem videoLatch_ramGen : (videoLatch s).ramGen = s.ramGen := rfl
@[simp] theorem videoLatch_host : (videoLatch s).host = s.host := rfl
@[simp] theorem videoLatch_ops : (videoLatch s).ops = s.ops := rfl
@[simp] theorem videoLatch_bus : (videoLatch s).bus = s.bus := rfl
@[simp] theorem videoLatch_draws : (videoLatch s).draws = s.draws := rfl
@[simp] theorem videoLatch_faults : (videoLatch s).faults = s.faults := rfl
@[simp] theorem videoLatch_refused : (videoLatch s).refused = s.refused := rfl

@[simp] theorem videoAdvance_params : (videoAdvance s).params = s.params := rfl
@[simp] theorem videoAdvance_cpu : (videoAdvance s).cpu = s.cpu := rfl
@[simp] theorem videoAdvance_arb : (videoAdvance s).arb = s.arb := rfl
@[simp] theorem videoAdvance_mfp : (videoAdvance s).mfp = s.mfp := rfl
@[simp] theorem videoAdvance_ym : (videoAdvance s).ym = s.ym := rfl
@[simp] theorem videoAdvance_wd : (videoAdvance s).wd = s.wd := rfl
@[simp] theorem videoAdvance_disk : (videoAdvance s).disk = s.disk := rfl
@[simp] theorem videoAdvance_acia : (videoAdvance s).acia = s.acia := rfl
@[simp] theorem videoAdvance_ikbd : (videoAdvance s).ikbd = s.ikbd := rfl
@[simp] theorem videoAdvance_loop : (videoAdvance s).loop = s.loop := rfl
@[simp] theorem videoAdvance_mem : (videoAdvance s).mem = s.mem := rfl
@[simp] theorem videoAdvance_ramGen : (videoAdvance s).ramGen = s.ramGen := rfl
@[simp] theorem videoAdvance_host : (videoAdvance s).host = s.host := rfl
@[simp] theorem videoAdvance_ops : (videoAdvance s).ops = s.ops := rfl
@[simp] theorem videoAdvance_bus : (videoAdvance s).bus = s.bus := rfl
@[simp] theorem videoAdvance_draws : (videoAdvance s).draws = s.draws := rfl
@[simp] theorem videoAdvance_faults : (videoAdvance s).faults = s.faults := rfl
@[simp] theorem videoAdvance_refused : (videoAdvance s).refused = s.refused := rfl

@[simp] theorem videoWriteBack_params : (videoWriteBack s).params = s.params := rfl
@[simp] theorem videoWriteBack_cpu : (videoWriteBack s).cpu = s.cpu := rfl
@[simp] theorem videoWriteBack_arb : (videoWriteBack s).arb = s.arb := rfl
@[simp] theorem videoWriteBack_mfp : (videoWriteBack s).mfp = s.mfp := rfl
@[simp] theorem videoWriteBack_ym : (videoWriteBack s).ym = s.ym := rfl
@[simp] theorem videoWriteBack_wd : (videoWriteBack s).wd = s.wd := rfl
@[simp] theorem videoWriteBack_disk : (videoWriteBack s).disk = s.disk := rfl
@[simp] theorem videoWriteBack_acia : (videoWriteBack s).acia = s.acia := rfl
@[simp] theorem videoWriteBack_ikbd : (videoWriteBack s).ikbd = s.ikbd := rfl
@[simp] theorem videoWriteBack_video : (videoWriteBack s).video = s.video := rfl
@[simp] theorem videoWriteBack_loop : (videoWriteBack s).loop = s.loop := rfl
@[simp] theorem videoWriteBack_ramGen : (videoWriteBack s).ramGen = s.ramGen := rfl
@[simp] theorem videoWriteBack_host : (videoWriteBack s).host = s.host := rfl
@[simp] theorem videoWriteBack_ops : (videoWriteBack s).ops = s.ops := rfl
@[simp] theorem videoWriteBack_bus : (videoWriteBack s).bus = s.bus := rfl
@[simp] theorem videoWriteBack_draws : (videoWriteBack s).draws = s.draws := rfl
@[simp] theorem videoWriteBack_faults : (videoWriteBack s).faults = s.faults := rfl
@[simp] theorem videoWriteBack_refused : (videoWriteBack s).refused = s.refused := rfl

@[simp] theorem raiseFrameComplete_params : (raiseFrameComplete s).params = s.params := rfl
@[simp] theorem raiseFrameComplete_cpu : (raiseFrameComplete s).cpu = s.cpu := rfl
@[simp] theorem raiseFrameComplete_arb : (raiseFrameComplete s).arb = s.arb := rfl
@[simp] theorem raiseFrameComplete_mfp : (raiseFrameComplete s).mfp = s.mfp := rfl
@[simp] theorem raiseFrameComplete_ym : (raiseFrameComplete s).ym = s.ym := rfl
@[simp] theorem raiseFrameComplete_wd : (raiseFrameComplete s).wd = s.wd := rfl
@[simp] theorem raiseFrameComplete_disk : (raiseFrameComplete s).disk = s.disk := rfl
@[simp] theorem raiseFrameComplete_acia : (raiseFrameComplete s).acia = s.acia := rfl
@[simp] theorem raiseFrameComplete_ikbd : (raiseFrameComplete s).ikbd = s.ikbd := rfl
@[simp] theorem raiseFrameComplete_loop : (raiseFrameComplete s).loop = s.loop := rfl
@[simp] theorem raiseFrameComplete_mem : (raiseFrameComplete s).mem = s.mem := rfl
@[simp] theorem raiseFrameComplete_ramGen : (raiseFrameComplete s).ramGen = s.ramGen := rfl
@[simp] theorem raiseFrameComplete_host : (raiseFrameComplete s).host = s.host := rfl
@[simp] theorem raiseFrameComplete_ops : (raiseFrameComplete s).ops = s.ops := rfl
@[simp] theorem raiseFrameComplete_bus : (raiseFrameComplete s).bus = s.bus := rfl
@[simp] theorem raiseFrameComplete_draws : (raiseFrameComplete s).draws = s.draws := rfl
@[simp] theorem raiseFrameComplete_faults : (raiseFrameComplete s).faults = s.faults := rfl
@[simp] theorem raiseFrameComplete_refused : (raiseFrameComplete s).refused = s.refused := rfl

@[simp] theorem gotoAct_params (a : Act) : (gotoAct a s).params = s.params := rfl
@[simp] theorem gotoAct_cpu (a : Act) : (gotoAct a s).cpu = s.cpu := rfl
@[simp] theorem gotoAct_arb (a : Act) : (gotoAct a s).arb = s.arb := rfl
@[simp] theorem gotoAct_mfp (a : Act) : (gotoAct a s).mfp = s.mfp := rfl
@[simp] theorem gotoAct_ym (a : Act) : (gotoAct a s).ym = s.ym := rfl
@[simp] theorem gotoAct_wd (a : Act) : (gotoAct a s).wd = s.wd := rfl
@[simp] theorem gotoAct_disk (a : Act) : (gotoAct a s).disk = s.disk := rfl
@[simp] theorem gotoAct_acia (a : Act) : (gotoAct a s).acia = s.acia := rfl
@[simp] theorem gotoAct_ikbd (a : Act) : (gotoAct a s).ikbd = s.ikbd := rfl
@[simp] theorem gotoAct_video (a : Act) : (gotoAct a s).video = s.video := rfl
@[simp] theorem gotoAct_mem (a : Act) : (gotoAct a s).mem = s.mem := rfl
@[simp] theorem gotoAct_ramGen (a : Act) : (gotoAct a s).ramGen = s.ramGen := rfl
@[simp] theorem gotoAct_host (a : Act) : (gotoAct a s).host = s.host := rfl
@[simp] theorem gotoAct_ops (a : Act) : (gotoAct a s).ops = s.ops := rfl
@[simp] theorem gotoAct_bus (a : Act) : (gotoAct a s).bus = s.bus := rfl
@[simp] theorem gotoAct_draws (a : Act) : (gotoAct a s).draws = s.draws := rfl
@[simp] theorem gotoAct_faults (a : Act) : (gotoAct a s).faults = s.faults := rfl
@[simp] theorem gotoAct_refused (a : Act) : (gotoAct a s).refused = s.refused := rfl

@[simp] theorem startFrame_params : (startFrame s).params = s.params := rfl
@[simp] theorem startFrame_cpu : (startFrame s).cpu = s.cpu := rfl
@[simp] theorem startFrame_arb : (startFrame s).arb = s.arb := rfl
@[simp] theorem startFrame_mfp : (startFrame s).mfp = s.mfp := rfl
@[simp] theorem startFrame_ym : (startFrame s).ym = s.ym := rfl
@[simp] theorem startFrame_wd : (startFrame s).wd = s.wd := rfl
@[simp] theorem startFrame_disk : (startFrame s).disk = s.disk := rfl
@[simp] theorem startFrame_acia : (startFrame s).acia = s.acia := rfl
@[simp] theorem startFrame_ikbd : (startFrame s).ikbd = s.ikbd := rfl
@[simp] theorem startFrame_mem : (startFrame s).mem = s.mem := rfl
@[simp] theorem startFrame_ramGen : (startFrame s).ramGen = s.ramGen := rfl
@[simp] theorem startFrame_host : (startFrame s).host = s.host := rfl
@[simp] theorem startFrame_ops : (startFrame s).ops = s.ops := rfl
@[simp] theorem startFrame_bus : (startFrame s).bus = s.bus := rfl
@[simp] theorem startFrame_draws : (startFrame s).draws = s.draws := rfl
@[simp] theorem startFrame_faults : (startFrame s).faults = s.faults := rfl
@[simp] theorem startFrame_refused : (startFrame s).refused = s.refused := rfl

@[simp] theorem spend_params (n : Nat) : (spend n s).params = s.params := rfl
@[simp] theorem spend_arb (n : Nat) : (spend n s).arb = s.arb := rfl
@[simp] theorem spend_mfp (n : Nat) : (spend n s).mfp = s.mfp := rfl
@[simp] theorem spend_ym (n : Nat) : (spend n s).ym = s.ym := rfl
@[simp] theorem spend_wd (n : Nat) : (spend n s).wd = s.wd := rfl
@[simp] theorem spend_disk (n : Nat) : (spend n s).disk = s.disk := rfl
@[simp] theorem spend_acia (n : Nat) : (spend n s).acia = s.acia := rfl
@[simp] theorem spend_ikbd (n : Nat) : (spend n s).ikbd = s.ikbd := rfl
@[simp] theorem spend_video (n : Nat) : (spend n s).video = s.video := rfl
@[simp] theorem spend_mem (n : Nat) : (spend n s).mem = s.mem := rfl
@[simp] theorem spend_ramGen (n : Nat) : (spend n s).ramGen = s.ramGen := rfl
@[simp] theorem spend_host (n : Nat) : (spend n s).host = s.host := rfl
@[simp] theorem spend_ops (n : Nat) : (spend n s).ops = s.ops := rfl
@[simp] theorem spend_bus (n : Nat) : (spend n s).bus = s.bus := rfl
@[simp] theorem spend_draws (n : Nat) : (spend n s).draws = s.draws := rfl
@[simp] theorem spend_faults (n : Nat) : (spend n s).faults = s.faults := rfl
@[simp] theorem spend_refused (n : Nat) : (spend n s).refused = s.refused := rfl

@[simp] theorem endBatch_params (n : Nat) (a : Act) : (endBatch n a s).params = s.params := rfl
@[simp] theorem endBatch_cpu (n : Nat) (a : Act) : (endBatch n a s).cpu = s.cpu := rfl
@[simp] theorem endBatch_arb (n : Nat) (a : Act) : (endBatch n a s).arb = s.arb := rfl
@[simp] theorem endBatch_mfp (n : Nat) (a : Act) : (endBatch n a s).mfp = s.mfp := rfl
@[simp] theorem endBatch_ym (n : Nat) (a : Act) : (endBatch n a s).ym = s.ym := rfl
@[simp] theorem endBatch_wd (n : Nat) (a : Act) : (endBatch n a s).wd = s.wd := rfl
@[simp] theorem endBatch_disk (n : Nat) (a : Act) : (endBatch n a s).disk = s.disk := rfl
@[simp] theorem endBatch_acia (n : Nat) (a : Act) : (endBatch n a s).acia = s.acia := rfl
@[simp] theorem endBatch_ikbd (n : Nat) (a : Act) : (endBatch n a s).ikbd = s.ikbd := rfl
@[simp] theorem endBatch_video (n : Nat) (a : Act) : (endBatch n a s).video = s.video := rfl
@[simp] theorem endBatch_mem (n : Nat) (a : Act) : (endBatch n a s).mem = s.mem := rfl
@[simp] theorem endBatch_ramGen (n : Nat) (a : Act) : (endBatch n a s).ramGen = s.ramGen := rfl
@[simp] theorem endBatch_host (n : Nat) (a : Act) : (endBatch n a s).host = s.host := rfl
@[simp] theorem endBatch_ops (n : Nat) (a : Act) : (endBatch n a s).ops = s.ops := rfl
@[simp] theorem endBatch_bus (n : Nat) (a : Act) : (endBatch n a s).bus = s.bus := rfl
@[simp] theorem endBatch_draws (n : Nat) (a : Act) : (endBatch n a s).draws = s.draws := rfl
@[simp] theorem endBatch_faults (n : Nat) (a : Act) : (endBatch n a s).faults = s.faults := rfl
@[simp] theorem endBatch_refused (n : Nat) (a : Act) : (endBatch n a s).refused = s.refused := rfl

@[simp] theorem requestStop_params (r : LoopRequest) : (requestStop r s).params = s.params := rfl
@[simp] theorem requestStop_cpu (r : LoopRequest) : (requestStop r s).cpu = s.cpu := rfl
@[simp] theorem requestStop_arb (r : LoopRequest) : (requestStop r s).arb = s.arb := rfl
@[simp] theorem requestStop_mfp (r : LoopRequest) : (requestStop r s).mfp = s.mfp := rfl
@[simp] theorem requestStop_ym (r : LoopRequest) : (requestStop r s).ym = s.ym := rfl
@[simp] theorem requestStop_wd (r : LoopRequest) : (requestStop r s).wd = s.wd := rfl
@[simp] theorem requestStop_disk (r : LoopRequest) : (requestStop r s).disk = s.disk := rfl
@[simp] theorem requestStop_acia (r : LoopRequest) : (requestStop r s).acia = s.acia := rfl
@[simp] theorem requestStop_ikbd (r : LoopRequest) : (requestStop r s).ikbd = s.ikbd := rfl
@[simp] theorem requestStop_video (r : LoopRequest) : (requestStop r s).video = s.video := rfl
@[simp] theorem requestStop_mem (r : LoopRequest) : (requestStop r s).mem = s.mem := rfl
@[simp] theorem requestStop_ramGen (r : LoopRequest) : (requestStop r s).ramGen = s.ramGen := rfl
@[simp] theorem requestStop_host (r : LoopRequest) : (requestStop r s).host = s.host := rfl
@[simp] theorem requestStop_ops (r : LoopRequest) : (requestStop r s).ops = s.ops := rfl
@[simp] theorem requestStop_bus (r : LoopRequest) : (requestStop r s).bus = s.bus := rfl
@[simp] theorem requestStop_draws (r : LoopRequest) : (requestStop r s).draws = s.draws := rfl
@[simp] theorem requestStop_faults (r : LoopRequest) : (requestStop r s).faults = s.faults := rfl
@[simp] theorem requestStop_refused (r : LoopRequest) : (requestStop r s).refused = s.refused := rfl

@[simp] theorem ejectDisk_params : (ejectDisk s).params = s.params := rfl
@[simp] theorem ejectDisk_cpu : (ejectDisk s).cpu = s.cpu := rfl
@[simp] theorem ejectDisk_arb : (ejectDisk s).arb = s.arb := rfl
@[simp] theorem ejectDisk_mfp : (ejectDisk s).mfp = s.mfp := rfl
@[simp] theorem ejectDisk_ym : (ejectDisk s).ym = s.ym := rfl
@[simp] theorem ejectDisk_wd : (ejectDisk s).wd = s.wd := rfl
@[simp] theorem ejectDisk_acia : (ejectDisk s).acia = s.acia := rfl
@[simp] theorem ejectDisk_ikbd : (ejectDisk s).ikbd = s.ikbd := rfl
@[simp] theorem ejectDisk_video : (ejectDisk s).video = s.video := rfl
@[simp] theorem ejectDisk_loop : (ejectDisk s).loop = s.loop := rfl
@[simp] theorem ejectDisk_mem : (ejectDisk s).mem = s.mem := rfl
@[simp] theorem ejectDisk_ramGen : (ejectDisk s).ramGen = s.ramGen := rfl
@[simp] theorem ejectDisk_host : (ejectDisk s).host = s.host := rfl
@[simp] theorem ejectDisk_ops : (ejectDisk s).ops = s.ops := rfl
@[simp] theorem ejectDisk_bus : (ejectDisk s).bus = s.bus := rfl
@[simp] theorem ejectDisk_draws : (ejectDisk s).draws = s.draws := rfl
@[simp] theorem ejectDisk_faults : (ejectDisk s).faults = s.faults := rfl
@[simp] theorem ejectDisk_refused : (ejectDisk s).refused = s.refused := rfl

@[simp] theorem hostArrives_params : (hostArrives s).params = s.params := rfl
@[simp] theorem hostArrives_cpu : (hostArrives s).cpu = s.cpu := rfl
@[simp] theorem hostArrives_arb : (hostArrives s).arb = s.arb := rfl
@[simp] theorem hostArrives_mfp : (hostArrives s).mfp = s.mfp := rfl
@[simp] theorem hostArrives_ym : (hostArrives s).ym = s.ym := rfl
@[simp] theorem hostArrives_wd : (hostArrives s).wd = s.wd := rfl
@[simp] theorem hostArrives_disk : (hostArrives s).disk = s.disk := rfl
@[simp] theorem hostArrives_acia : (hostArrives s).acia = s.acia := rfl
@[simp] theorem hostArrives_ikbd : (hostArrives s).ikbd = s.ikbd := rfl
@[simp] theorem hostArrives_video : (hostArrives s).video = s.video := rfl
@[simp] theorem hostArrives_loop : (hostArrives s).loop = s.loop := rfl
@[simp] theorem hostArrives_mem : (hostArrives s).mem = s.mem := rfl
@[simp] theorem hostArrives_ramGen : (hostArrives s).ramGen = s.ramGen := rfl
@[simp] theorem hostArrives_ops : (hostArrives s).ops = s.ops := rfl
@[simp] theorem hostArrives_bus : (hostArrives s).bus = s.bus := rfl
@[simp] theorem hostArrives_faults : (hostArrives s).faults = s.faults := rfl
@[simp] theorem hostArrives_refused : (hostArrives s).refused = s.refused := rfl

@[simp] theorem beginInstruction_params : (beginInstruction s).params = s.params := rfl
@[simp] theorem beginInstruction_arb : (beginInstruction s).arb = s.arb := rfl
@[simp] theorem beginInstruction_mfp : (beginInstruction s).mfp = s.mfp := rfl
@[simp] theorem beginInstruction_ym : (beginInstruction s).ym = s.ym := rfl
@[simp] theorem beginInstruction_wd : (beginInstruction s).wd = s.wd := rfl
@[simp] theorem beginInstruction_disk : (beginInstruction s).disk = s.disk := rfl
@[simp] theorem beginInstruction_acia : (beginInstruction s).acia = s.acia := rfl
@[simp] theorem beginInstruction_ikbd : (beginInstruction s).ikbd = s.ikbd := rfl
@[simp] theorem beginInstruction_video : (beginInstruction s).video = s.video := rfl
@[simp] theorem beginInstruction_loop : (beginInstruction s).loop = s.loop := rfl
@[simp] theorem beginInstruction_mem : (beginInstruction s).mem = s.mem := rfl
@[simp] theorem beginInstruction_ramGen : (beginInstruction s).ramGen = s.ramGen := rfl
@[simp] theorem beginInstruction_host : (beginInstruction s).host = s.host := rfl
@[simp] theorem beginInstruction_ops : (beginInstruction s).ops = s.ops := rfl
@[simp] theorem beginInstruction_bus : (beginInstruction s).bus = s.bus := rfl
@[simp] theorem beginInstruction_faults : (beginInstruction s).faults = s.faults := rfl
@[simp] theorem beginInstruction_refused : (beginInstruction s).refused = s.refused := rfl

@[simp] theorem cpuReset_params : (cpuReset s).params = s.params := rfl
@[simp] theorem cpuReset_arb : (cpuReset s).arb = s.arb := rfl
@[simp] theorem cpuReset_mfp : (cpuReset s).mfp = s.mfp := rfl
@[simp] theorem cpuReset_ym : (cpuReset s).ym = s.ym := rfl
@[simp] theorem cpuReset_wd : (cpuReset s).wd = s.wd := rfl
@[simp] theorem cpuReset_disk : (cpuReset s).disk = s.disk := rfl
@[simp] theorem cpuReset_acia : (cpuReset s).acia = s.acia := rfl
@[simp] theorem cpuReset_ikbd : (cpuReset s).ikbd = s.ikbd := rfl
@[simp] theorem cpuReset_video : (cpuReset s).video = s.video := rfl
@[simp] theorem cpuReset_loop : (cpuReset s).loop = s.loop := rfl
@[simp] theorem cpuReset_mem : (cpuReset s).mem = s.mem := rfl
@[simp] theorem cpuReset_ramGen : (cpuReset s).ramGen = s.ramGen := rfl
@[simp] theorem cpuReset_host : (cpuReset s).host = s.host := rfl
@[simp] theorem cpuReset_ops : (cpuReset s).ops = s.ops := rfl
@[simp] theorem cpuReset_bus : (cpuReset s).bus = s.bus := rfl
@[simp] theorem cpuReset_draws : (cpuReset s).draws = s.draws := rfl
@[simp] theorem cpuReset_faults : (cpuReset s).faults = s.faults := rfl
@[simp] theorem cpuReset_refused : (cpuReset s).refused = s.refused := rfl

@[simp] theorem deviceReset_params : (deviceReset s).params = s.params := rfl
@[simp] theorem deviceReset_cpu : (deviceReset s).cpu = s.cpu := rfl
@[simp] theorem deviceReset_disk : (deviceReset s).disk = s.disk := rfl
@[simp] theorem deviceReset_mem : (deviceReset s).mem = s.mem := rfl
@[simp] theorem deviceReset_ramGen : (deviceReset s).ramGen = s.ramGen := rfl
@[simp] theorem deviceReset_host : (deviceReset s).host = s.host := rfl
@[simp] theorem deviceReset_ops : (deviceReset s).ops = s.ops := rfl
@[simp] theorem deviceReset_bus : (deviceReset s).bus = s.bus := rfl
@[simp] theorem deviceReset_draws : (deviceReset s).draws = s.draws := rfl
@[simp] theorem deviceReset_faults : (deviceReset s).faults = s.faults := rfl
@[simp] theorem deviceReset_refused : (deviceReset s).refused = s.refused := rfl

@[simp] theorem warmReset_params : (warmReset s).params = s.params := rfl
@[simp] theorem warmReset_disk : (warmReset s).disk = s.disk := rfl
@[simp] theorem warmReset_mem : (warmReset s).mem = s.mem := rfl
@[simp] theorem warmReset_ramGen : (warmReset s).ramGen = s.ramGen := rfl
@[simp] theorem warmReset_host : (warmReset s).host = s.host := rfl
@[simp] theorem warmReset_ops : (warmReset s).ops = s.ops := rfl
@[simp] theorem warmReset_bus : (warmReset s).bus = s.bus := rfl
@[simp] theorem warmReset_draws : (warmReset s).draws = s.draws := rfl
@[simp] theorem warmReset_faults : (warmReset s).faults = s.faults := rfl
@[simp] theorem warmReset_refused : (warmReset s).refused = s.refused := rfl

@[simp] theorem setCore_cpu_ipl (r : CoreRegs) : (setCore r s).cpu.ipl = s.cpu.ipl := rfl
@[simp] theorem setCore_cpu_clock (r : CoreRegs) : (setCore r s).cpu.clock = s.cpu.clock := rfl
@[simp] theorem setCore_cpu_stopped (r : CoreRegs) : (setCore r s).cpu.stopped = s.cpu.stopped := rfl
@[simp] theorem setCore_cpu_ir (r : CoreRegs) : (setCore r s).cpu.ir = s.cpu.ir := rfl
@[simp] theorem setCore_cpu_ipc (r : CoreRegs) : (setCore r s).cpu.ipc = s.cpu.ipc := rfl
@[simp] theorem setCore_cpu_berr (r : CoreRegs) : (setCore r s).cpu.berr = s.cpu.berr := rfl
@[simp] theorem setCore_cpu_ahead (r : CoreRegs) : (setCore r s).cpu.ahead = s.cpu.ahead := rfl

@[simp] theorem setPc_cpu_ipl (a : Word) : (setPc a s).cpu.ipl = s.cpu.ipl := rfl
@[simp] theorem setPc_cpu_clock (a : Word) : (setPc a s).cpu.clock = s.cpu.clock := rfl
@[simp] theorem setPc_cpu_stopped (a : Word) : (setPc a s).cpu.stopped = s.cpu.stopped := rfl
@[simp] theorem setPc_cpu_ir (a : Word) : (setPc a s).cpu.ir = s.cpu.ir := rfl
@[simp] theorem setPc_cpu_ipc (a : Word) : (setPc a s).cpu.ipc = s.cpu.ipc := rfl
@[simp] theorem setPc_cpu_berr (a : Word) : (setPc a s).cpu.berr = s.cpu.berr := rfl
@[simp] theorem setPc_cpu_ahead (a : Word) : (setPc a s).cpu.ahead = s.cpu.ahead := rfl

@[simp] theorem enterSupervisor_cpu_ipl : (enterSupervisor s).cpu.ipl = s.cpu.ipl := rfl
@[simp] theorem enterSupervisor_cpu_clock : (enterSupervisor s).cpu.clock = s.cpu.clock := rfl
@[simp] theorem enterSupervisor_cpu_stopped : (enterSupervisor s).cpu.stopped = s.cpu.stopped := rfl
@[simp] theorem enterSupervisor_cpu_ir : (enterSupervisor s).cpu.ir = s.cpu.ir := rfl
@[simp] theorem enterSupervisor_cpu_ipc : (enterSupervisor s).cpu.ipc = s.cpu.ipc := rfl
@[simp] theorem enterSupervisor_cpu_berr : (enterSupervisor s).cpu.berr = s.cpu.berr := rfl

@[simp] theorem setAhead_cpu_regs (l : List (Addr × Half)) : (setAhead l s).cpu.regs = s.cpu.regs := rfl
@[simp] theorem setAhead_cpu_ipl (l : List (Addr × Half)) : (setAhead l s).cpu.ipl = s.cpu.ipl := rfl
@[simp] theorem setAhead_cpu_clock (l : List (Addr × Half)) : (setAhead l s).cpu.clock = s.cpu.clock := rfl
@[simp] theorem setAhead_cpu_stopped (l : List (Addr × Half)) : (setAhead l s).cpu.stopped = s.cpu.stopped := rfl
@[simp] theorem setAhead_cpu_ir (l : List (Addr × Half)) : (setAhead l s).cpu.ir = s.cpu.ir := rfl
@[simp] theorem setAhead_cpu_ipc (l : List (Addr × Half)) : (setAhead l s).cpu.ipc = s.cpu.ipc := rfl
@[simp] theorem setAhead_cpu_berr (l : List (Addr × Half)) : (setAhead l s).cpu.berr = s.cpu.berr := rfl

@[simp] theorem dropAhead_cpu_regs (a : Addr) : (dropAhead a s).cpu.regs = s.cpu.regs := rfl
@[simp] theorem dropAhead_cpu_ipl (a : Addr) : (dropAhead a s).cpu.ipl = s.cpu.ipl := rfl
@[simp] theorem dropAhead_cpu_clock (a : Addr) : (dropAhead a s).cpu.clock = s.cpu.clock := rfl
@[simp] theorem dropAhead_cpu_stopped (a : Addr) : (dropAhead a s).cpu.stopped = s.cpu.stopped := rfl
@[simp] theorem dropAhead_cpu_ir (a : Addr) : (dropAhead a s).cpu.ir = s.cpu.ir := rfl
@[simp] theorem dropAhead_cpu_ipc (a : Addr) : (dropAhead a s).cpu.ipc = s.cpu.ipc := rfl
@[simp] theorem dropAhead_cpu_berr (a : Addr) : (dropAhead a s).cpu.berr = s.cpu.berr := rfl

@[simp] theorem noteAhead_cpu_regs (s0 : State) : (noteAhead s0 s).cpu.regs = s.cpu.regs := rfl
@[simp] theorem noteAhead_cpu_ipl (s0 : State) : (noteAhead s0 s).cpu.ipl = s.cpu.ipl := rfl
@[simp] theorem noteAhead_cpu_clock (s0 : State) : (noteAhead s0 s).cpu.clock = s.cpu.clock := rfl
@[simp] theorem noteAhead_cpu_stopped (s0 : State) : (noteAhead s0 s).cpu.stopped = s.cpu.stopped := rfl
@[simp] theorem noteAhead_cpu_ir (s0 : State) : (noteAhead s0 s).cpu.ir = s.cpu.ir := rfl
@[simp] theorem noteAhead_cpu_ipc (s0 : State) : (noteAhead s0 s).cpu.ipc = s.cpu.ipc := rfl
@[simp] theorem noteAhead_cpu_berr (s0 : State) : (noteAhead s0 s).cpu.berr = s.cpu.berr := rfl

@[simp] theorem betweenInstructions_cpu_regs : (betweenInstructions s).cpu.regs = s.cpu.regs := rfl
@[simp] theorem betweenInstructions_cpu_ipl : (betweenInstructions s).cpu.ipl = s.cpu.ipl := rfl
@[simp] theorem betweenInstructions_cpu_clock : (betweenInstructions s).cpu.clock = s.cpu.clock := rfl
@[simp] theorem betweenInstructions_cpu_stopped : (betweenInstructions s).cpu.stopped = s.cpu.stopped := rfl
@[simp] theorem betweenInstructions_cpu_berr : (betweenInstructions s).cpu.berr = s.cpu.berr := rfl
@[simp] theorem betweenInstructions_cpu_ahead : (betweenInstructions s).cpu.ahead = s.cpu.ahead := rfl

@[simp] theorem commitRegs_cpu_ipl (r : CoreRegs) : (commitRegs r s).cpu.ipl = s.cpu.ipl := rfl
@[simp] theorem commitRegs_cpu_clock (r : CoreRegs) : (commitRegs r s).cpu.clock = s.cpu.clock := rfl
@[simp] theorem commitRegs_cpu_stopped (r : CoreRegs) : (commitRegs r s).cpu.stopped = s.cpu.stopped := rfl
@[simp] theorem commitRegs_cpu_ir (r : CoreRegs) : (commitRegs r s).cpu.ir = s.cpu.ir := rfl
@[simp] theorem commitRegs_cpu_ipc (r : CoreRegs) : (commitRegs r s).cpu.ipc = s.cpu.ipc := rfl
@[simp] theorem commitRegs_cpu_berr (r : CoreRegs) : (commitRegs r s).cpu.berr = s.cpu.berr := rfl
@[simp] theorem commitRegs_cpu_ahead (r : CoreRegs) : (commitRegs r s).cpu.ahead = s.cpu.ahead := rfl

@[simp] theorem markBerr_cpu_regs (b : Bool) : (markBerr b s).cpu.regs = s.cpu.regs := rfl
@[simp] theorem markBerr_cpu_ipl (b : Bool) : (markBerr b s).cpu.ipl = s.cpu.ipl := rfl
@[simp] theorem markBerr_cpu_clock (b : Bool) : (markBerr b s).cpu.clock = s.cpu.clock := rfl
@[simp] theorem markBerr_cpu_stopped (b : Bool) : (markBerr b s).cpu.stopped = s.cpu.stopped := rfl
@[simp] theorem markBerr_cpu_ir (b : Bool) : (markBerr b s).cpu.ir = s.cpu.ir := rfl
@[simp] theorem markBerr_cpu_ipc (b : Bool) : (markBerr b s).cpu.ipc = s.cpu.ipc := rfl
@[simp] theorem markBerr_cpu_ahead (b : Bool) : (markBerr b s).cpu.ahead = s.cpu.ahead := rfl

@[simp] theorem setStopped_cpu_regs (b : Bool) : (setStopped b s).cpu.regs = s.cpu.regs := rfl
@[simp] theorem setStopped_cpu_ipl (b : Bool) : (setStopped b s).cpu.ipl = s.cpu.ipl := rfl
@[simp] theorem setStopped_cpu_clock (b : Bool) : (setStopped b s).cpu.clock = s.cpu.clock := rfl
@[simp] theorem setStopped_cpu_ir (b : Bool) : (setStopped b s).cpu.ir = s.cpu.ir := rfl
@[simp] theorem setStopped_cpu_ipc (b : Bool) : (setStopped b s).cpu.ipc = s.cpu.ipc := rfl
@[simp] theorem setStopped_cpu_berr (b : Bool) : (setStopped b s).cpu.berr = s.cpu.berr := rfl
@[simp] theorem setStopped_cpu_ahead (b : Bool) : (setStopped b s).cpu.ahead = s.cpu.ahead := rfl

@[simp] theorem recomputeIpl_cpu_regs : (recomputeIpl s).cpu.regs = s.cpu.regs := rfl
@[simp] theorem recomputeIpl_cpu_clock : (recomputeIpl s).cpu.clock = s.cpu.clock := rfl
@[simp] theorem recomputeIpl_cpu_stopped : (recomputeIpl s).cpu.stopped = s.cpu.stopped := rfl
@[simp] theorem recomputeIpl_cpu_ir : (recomputeIpl s).cpu.ir = s.cpu.ir := rfl
@[simp] theorem recomputeIpl_cpu_ipc : (recomputeIpl s).cpu.ipc = s.cpu.ipc := rfl
@[simp] theorem recomputeIpl_cpu_berr : (recomputeIpl s).cpu.berr = s.cpu.berr := rfl
@[simp] theorem recomputeIpl_cpu_ahead : (recomputeIpl s).cpu.ahead = s.cpu.ahead := rfl

@[simp] theorem updateIrq_cpu_regs : (updateIrq s).cpu.regs = s.cpu.regs := rfl
@[simp] theorem updateIrq_cpu_clock : (updateIrq s).cpu.clock = s.cpu.clock := rfl
@[simp] theorem updateIrq_cpu_stopped : (updateIrq s).cpu.stopped = s.cpu.stopped := rfl
@[simp] theorem updateIrq_cpu_ir : (updateIrq s).cpu.ir = s.cpu.ir := rfl
@[simp] theorem updateIrq_cpu_ipc : (updateIrq s).cpu.ipc = s.cpu.ipc := rfl
@[simp] theorem updateIrq_cpu_berr : (updateIrq s).cpu.berr = s.cpu.berr := rfl
@[simp] theorem updateIrq_cpu_ahead : (updateIrq s).cpu.ahead = s.cpu.ahead := rfl

@[simp] theorem setMfpIrq_cpu_regs (m : Mfp) : (setMfpIrq m s).cpu.regs = s.cpu.regs := rfl
@[simp] theorem setMfpIrq_cpu_clock (m : Mfp) : (setMfpIrq m s).cpu.clock = s.cpu.clock := rfl
@[simp] theorem setMfpIrq_cpu_stopped (m : Mfp) : (setMfpIrq m s).cpu.stopped = s.cpu.stopped := rfl
@[simp] theorem setMfpIrq_cpu_ir (m : Mfp) : (setMfpIrq m s).cpu.ir = s.cpu.ir := rfl
@[simp] theorem setMfpIrq_cpu_ipc (m : Mfp) : (setMfpIrq m s).cpu.ipc = s.cpu.ipc := rfl
@[simp] theorem setMfpIrq_cpu_berr (m : Mfp) : (setMfpIrq m s).cpu.berr = s.cpu.berr := rfl
@[simp] theorem setMfpIrq_cpu_ahead (m : Mfp) : (setMfpIrq m s).cpu.ahead = s.cpu.ahead := rfl

@[simp] theorem raiseHbl_cpu_regs : (raiseHbl s).cpu.regs = s.cpu.regs := rfl
@[simp] theorem raiseHbl_cpu_clock : (raiseHbl s).cpu.clock = s.cpu.clock := rfl
@[simp] theorem raiseHbl_cpu_stopped : (raiseHbl s).cpu.stopped = s.cpu.stopped := rfl
@[simp] theorem raiseHbl_cpu_ir : (raiseHbl s).cpu.ir = s.cpu.ir := rfl
@[simp] theorem raiseHbl_cpu_ipc : (raiseHbl s).cpu.ipc = s.cpu.ipc := rfl
@[simp] theorem raiseHbl_cpu_berr : (raiseHbl s).cpu.berr = s.cpu.berr := rfl
@[simp] theorem raiseHbl_cpu_ahead : (raiseHbl s).cpu.ahead = s.cpu.ahead := rfl

@[simp] theorem raiseVbl_cpu_regs : (raiseVbl s).cpu.regs = s.cpu.regs := rfl
@[simp] theorem raiseVbl_cpu_clock : (raiseVbl s).cpu.clock = s.cpu.clock := rfl
@[simp] theorem raiseVbl_cpu_stopped : (raiseVbl s).cpu.stopped = s.cpu.stopped := rfl
@[simp] theorem raiseVbl_cpu_ir : (raiseVbl s).cpu.ir = s.cpu.ir := rfl
@[simp] theorem raiseVbl_cpu_ipc : (raiseVbl s).cpu.ipc = s.cpu.ipc := rfl
@[simp] theorem raiseVbl_cpu_berr : (raiseVbl s).cpu.berr = s.cpu.berr := rfl
@[simp] theorem raiseVbl_cpu_ahead : (raiseVbl s).cpu.ahead = s.cpu.ahead := rfl

@[simp] theorem clearHbl_cpu_regs : (clearHbl s).cpu.regs = s.cpu.regs := rfl
@[simp] theorem clearHbl_cpu_clock : (clearHbl s).cpu.clock = s.cpu.clock := rfl
@[simp] theorem clearHbl_cpu_stopped : (clearHbl s).cpu.stopped = s.cpu.stopped := rfl
@[simp] theorem clearHbl_cpu_ir : (clearHbl s).cpu.ir = s.cpu.ir := rfl
@[simp] theorem clearHbl_cpu_ipc : (clearHbl s).cpu.ipc = s.cpu.ipc := rfl
@[simp] theorem clearHbl_cpu_berr : (clearHbl s).cpu.berr = s.cpu.berr := rfl
@[simp] theorem clearHbl_cpu_ahead : (clearHbl s).cpu.ahead = s.cpu.ahead := rfl

@[simp] theorem clearVbl_cpu_regs : (clearVbl s).cpu.regs = s.cpu.regs := rfl
@[simp] theorem clearVbl_cpu_clock : (clearVbl s).cpu.clock = s.cpu.clock := rfl
@[simp] theorem clearVbl_cpu_stopped : (clearVbl s).cpu.stopped = s.cpu.stopped := rfl
@[simp] theorem clearVbl_cpu_ir : (clearVbl s).cpu.ir = s.cpu.ir := rfl
@[simp] theorem clearVbl_cpu_ipc : (clearVbl s).cpu.ipc = s.cpu.ipc := rfl
@[simp] theorem clearVbl_cpu_berr : (clearVbl s).cpu.berr = s.cpu.berr := rfl
@[simp] theorem clearVbl_cpu_ahead : (clearVbl s).cpu.ahead = s.cpu.ahead := rfl

@[simp] theorem spend_cpu_regs (n : Nat) : (spend n s).cpu.regs = s.cpu.regs := rfl
@[simp] theorem spend_cpu_ipl (n : Nat) : (spend n s).cpu.ipl = s.cpu.ipl := rfl
@[simp] theorem spend_cpu_stopped (n : Nat) : (spend n s).cpu.stopped = s.cpu.stopped := rfl
@[simp] theorem spend_cpu_ir (n : Nat) : (spend n s).cpu.ir = s.cpu.ir := rfl
@[simp] theorem spend_cpu_ipc (n : Nat) : (spend n s).cpu.ipc = s.cpu.ipc := rfl
@[simp] theorem spend_cpu_berr (n : Nat) : (spend n s).cpu.berr = s.cpu.berr := rfl
@[simp] theorem spend_cpu_ahead (n : Nat) : (spend n s).cpu.ahead = s.cpu.ahead := rfl

@[simp] theorem beginInstruction_cpu_regs : (beginInstruction s).cpu.regs = s.cpu.regs := rfl
@[simp] theorem beginInstruction_cpu_ipl : (beginInstruction s).cpu.ipl = s.cpu.ipl := rfl
@[simp] theorem beginInstruction_cpu_clock : (beginInstruction s).cpu.clock = s.cpu.clock := rfl
@[simp] theorem beginInstruction_cpu_stopped : (beginInstruction s).cpu.stopped = s.cpu.stopped := rfl
@[simp] theorem beginInstruction_cpu_berr : (beginInstruction s).cpu.berr = s.cpu.berr := rfl
@[simp] theorem beginInstruction_cpu_ahead : (beginInstruction s).cpu.ahead = s.cpu.ahead := rfl

@[simp] theorem updateIrq_arb_hbl : (updateIrq s).arb.hbl = s.arb.hbl := rfl
@[simp] theorem updateIrq_arb_vbl : (updateIrq s).arb.vbl = s.arb.vbl := rfl

@[simp] theorem setMfpIrq_arb_hbl (m : Mfp) : (setMfpIrq m s).arb.hbl = s.arb.hbl := rfl
@[simp] theorem setMfpIrq_arb_vbl (m : Mfp) : (setMfpIrq m s).arb.vbl = s.arb.vbl := rfl

@[simp] theorem raiseHbl_arb_vbl : (raiseHbl s).arb.vbl = s.arb.vbl := rfl
@[simp] theorem raiseHbl_arb_mfp : (raiseHbl s).arb.mfp = s.arb.mfp := rfl

@[simp] theorem raiseVbl_arb_hbl : (raiseVbl s).arb.hbl = s.arb.hbl := rfl
@[simp] theorem raiseVbl_arb_mfp : (raiseVbl s).arb.mfp = s.arb.mfp := rfl

@[simp] theorem clearHbl_arb_vbl : (clearHbl s).arb.vbl = s.arb.vbl := rfl
@[simp] theorem clearHbl_arb_mfp : (clearHbl s).arb.mfp = s.arb.mfp := rfl

@[simp] theorem clearVbl_arb_hbl : (clearVbl s).arb.hbl = s.arb.hbl := rfl
@[simp] theorem clearVbl_arb_mfp : (clearVbl s).arb.mfp = s.arb.mfp := rfl

@[simp] theorem storeByte_written (k : Nat) (v : Byte) : (storeByte k v s).mem = memPut s.mem k v := rfl
@[simp] theorem nextDraw_written : (nextDraw s).draws = s.draws + 1 := rfl
@[simp] theorem answer_written (v : Word) : (answer v s).bus = v := rfl
@[simp] theorem answer8_written (v : Byte) : (answer8 v s).bus = v.setWidth 32 := rfl
@[simp] theorem answer16_written (v : Half) : (answer16 v s).bus = v.setWidth 32 := rfl
@[simp] theorem setCore_written (r : CoreRegs) : (setCore r s).cpu.regs = r := rfl
@[simp] theorem setPc_written (a : Word) : (setPc a s).cpu.regs = { s.cpu.regs with pc := a } := rfl
@[simp] theorem setAhead_written (l : List (Addr × Half)) : (setAhead l s).cpu.ahead = l := rfl
@[simp] theorem enterSupervisor_written : (enterSupervisor s).cpu.ahead = [] := rfl
@[simp] theorem markBerr_written (b : Bool) : (markBerr b s).cpu.berr = b := rfl
@[simp] theorem setStopped_written (b : Bool) : (setStopped b s).cpu.stopped = b := rfl
@[simp] theorem recomputeIpl_written : (recomputeIpl s).cpu.ipl = iplOf s.arb := rfl
@[simp] theorem updateIrq_written : (updateIrq s).arb.mfp = mfpRequest s.mfp := rfl
@[simp] theorem updateIrq_ipl_written : (updateIrq s).cpu.ipl = iplOf (updateIrq s).arb := rfl
@[simp] theorem setMfpIrq_written (m : Mfp) : (setMfpIrq m s).mfp = m := rfl
@[simp] theorem setWd_written (w : Wd) : (setWd w s).wd = w := rfl
@[simp] theorem pushQueue_written (bs : List Byte) : (pushQueue bs s).acia.queue = s.acia.queue ++ bs := rfl

@[simp] theorem hostArrives_turns : (hostArrives s).host.turns = Config.hostTurns s.draws ++ [.emulator] := rfl
@[simp] theorem hostArrives_inbox : (hostArrives s).host.inbox = s.host.inbox ++ Config.hostSteps s.draws := rfl
@[simp] theorem hostArrives_audioOut : (hostArrives s).host.audioOut = s.host.audioOut := rfl
@[simp] theorem hostArrives_written : (hostArrives s).draws = s.draws + 1 := rfl

/-- With no turn listed, turns and host steps arrive (log 14). -/
theorem withTurns_none {s : State} (h : s.host.turns = []) : withTurns s = hostArrives s := by
  unfold withTurns; rw [h]; rfl

/-- With a turn listed, nothing arrives. -/
theorem withTurns_listed {s : State} {t : Config.Turn} {ts : List Config.Turn} (h : s.host.turns = t :: ts) :
    withTurns s = s := by
  unfold withTurns; rw [h]; rfl


@[simp] theorem storeSample_reg (cap : Nat) (lvl out : Config.FloatBits) (x : Config.FloatBits) (y : Ym) :
    (storeSample cap lvl out x y).reg = y.reg := rfl
@[simp] theorem storeSample_sel (cap : Nat) (lvl out : Config.FloatBits) (x : Config.FloatBits) (y : Ym) :
    (storeSample cap lvl out x y).sel = y.sel := rfl
@[simp] theorem storeSample_toneA (cap : Nat) (lvl out : Config.FloatBits) (x : Config.FloatBits) (y : Ym) :
    (storeSample cap lvl out x y).toneA = y.toneA := rfl
@[simp] theorem storeSample_toneB (cap : Nat) (lvl out : Config.FloatBits) (x : Config.FloatBits) (y : Ym) :
    (storeSample cap lvl out x y).toneB = y.toneB := rfl
@[simp] theorem storeSample_toneC (cap : Nat) (lvl out : Config.FloatBits) (x : Config.FloatBits) (y : Ym) :
    (storeSample cap lvl out x y).toneC = y.toneC := rfl
@[simp] theorem storeSample_ncnt (cap : Nat) (lvl out : Config.FloatBits) (x : Config.FloatBits) (y : Ym) :
    (storeSample cap lvl out x y).ncnt = y.ncnt := rfl
@[simp] theorem storeSample_rng (cap : Nat) (lvl out : Config.FloatBits) (x : Config.FloatBits) (y : Ym) :
    (storeSample cap lvl out x y).rng = y.rng := rfl
@[simp] theorem storeSample_noise (cap : Nat) (lvl out : Config.FloatBits) (x : Config.FloatBits) (y : Ym) :
    (storeSample cap lvl out x y).noise = y.noise := rfl
@[simp] theorem storeSample_envPos (cap : Nat) (lvl out : Config.FloatBits) (x : Config.FloatBits) (y : Ym) :
    (storeSample cap lvl out x y).envPos = y.envPos := rfl
@[simp] theorem storeSample_envCnt (cap : Nat) (lvl out : Config.FloatBits) (x : Config.FloatBits) (y : Ym) :
    (storeSample cap lvl out x y).envCnt = y.envCnt := rfl
@[simp] theorem storeSample_cyc (cap : Nat) (lvl out : Config.FloatBits) (x : Config.FloatBits) (y : Ym) :
    (storeSample cap lvl out x y).cyc = y.cyc := rfl
@[simp] theorem storeSample_racc (cap : Nat) (lvl out : Config.FloatBits) (x : Config.FloatBits) (y : Ym) :
    (storeSample cap lvl out x y).racc = y.racc := rfl
@[simp] theorem storeSample_last (cap : Nat) (lvl out : Config.FloatBits) (x : Config.FloatBits) (y : Ym) :
    (storeSample cap lvl out x y).last = y.last := rfl

@[simp] theorem setRacc_reg (n : Nat) (y : Ym) : (setRacc n y).reg = y.reg := rfl
@[simp] theorem setRacc_sel (n : Nat) (y : Ym) : (setRacc n y).sel = y.sel := rfl
@[simp] theorem setRacc_toneA (n : Nat) (y : Ym) : (setRacc n y).toneA = y.toneA := rfl
@[simp] theorem setRacc_toneB (n : Nat) (y : Ym) : (setRacc n y).toneB = y.toneB := rfl
@[simp] theorem setRacc_toneC (n : Nat) (y : Ym) : (setRacc n y).toneC = y.toneC := rfl
@[simp] theorem setRacc_ncnt (n : Nat) (y : Ym) : (setRacc n y).ncnt = y.ncnt := rfl
@[simp] theorem setRacc_rng (n : Nat) (y : Ym) : (setRacc n y).rng = y.rng := rfl
@[simp] theorem setRacc_noise (n : Nat) (y : Ym) : (setRacc n y).noise = y.noise := rfl
@[simp] theorem setRacc_envPos (n : Nat) (y : Ym) : (setRacc n y).envPos = y.envPos := rfl
@[simp] theorem setRacc_envCnt (n : Nat) (y : Ym) : (setRacc n y).envCnt = y.envCnt := rfl
@[simp] theorem setRacc_cyc (n : Nat) (y : Ym) : (setRacc n y).cyc = y.cyc := rfl
@[simp] theorem setRacc_xPrev (n : Nat) (y : Ym) : (setRacc n y).xPrev = y.xPrev := rfl
@[simp] theorem setRacc_yPrev (n : Nat) (y : Ym) : (setRacc n y).yPrev = y.yPrev := rfl
@[simp] theorem setRacc_ring (n : Nat) (y : Ym) : (setRacc n y).ring = y.ring := rfl
@[simp] theorem setRacc_last (n : Nat) (y : Ym) : (setRacc n y).last = y.last := rfl

@[simp] theorem setCyc_reg (n : Nat) (y : Ym) : (setCyc n y).reg = y.reg := rfl
@[simp] theorem setCyc_sel (n : Nat) (y : Ym) : (setCyc n y).sel = y.sel := rfl
@[simp] theorem setCyc_toneA (n : Nat) (y : Ym) : (setCyc n y).toneA = y.toneA := rfl
@[simp] theorem setCyc_toneB (n : Nat) (y : Ym) : (setCyc n y).toneB = y.toneB := rfl
@[simp] theorem setCyc_toneC (n : Nat) (y : Ym) : (setCyc n y).toneC = y.toneC := rfl
@[simp] theorem setCyc_ncnt (n : Nat) (y : Ym) : (setCyc n y).ncnt = y.ncnt := rfl
@[simp] theorem setCyc_rng (n : Nat) (y : Ym) : (setCyc n y).rng = y.rng := rfl
@[simp] theorem setCyc_noise (n : Nat) (y : Ym) : (setCyc n y).noise = y.noise := rfl
@[simp] theorem setCyc_envPos (n : Nat) (y : Ym) : (setCyc n y).envPos = y.envPos := rfl
@[simp] theorem setCyc_envCnt (n : Nat) (y : Ym) : (setCyc n y).envCnt = y.envCnt := rfl
@[simp] theorem setCyc_racc (n : Nat) (y : Ym) : (setCyc n y).racc = y.racc := rfl
@[simp] theorem setCyc_xPrev (n : Nat) (y : Ym) : (setCyc n y).xPrev = y.xPrev := rfl
@[simp] theorem setCyc_yPrev (n : Nat) (y : Ym) : (setCyc n y).yPrev = y.yPrev := rfl
@[simp] theorem setCyc_ring (n : Nat) (y : Ym) : (setCyc n y).ring = y.ring := rfl
@[simp] theorem setCyc_last (n : Nat) (y : Ym) : (setCyc n y).last = y.last := rfl

end Sys2Proof.Machine
end

