-- ==== Sys2Proof/Laws/Frames.lean ====
section
/-! SUPPORT. Laws/Frames.lean: for each shared operation of the devices, once, what it leaves alone. An IrqFrame is an
operation of the MFP that can only move the request lines; a DevFrame is any device access of the bus. -/

namespace Sys2Proof.Machine

/-- What an operation on the MFP's lines leaves alone: everything but the MFP, `arb.MFP` and the IPL. -/
structure IrqFrame (s t : State) : Prop where
  params : t.params = s.params
  regs : t.cpu.regs = s.cpu.regs
  clock : t.cpu.clock = s.cpu.clock
  stopped : t.cpu.stopped = s.cpu.stopped
  ir : t.cpu.ir = s.cpu.ir
  ipc : t.cpu.ipc = s.cpu.ipc
  berr : t.cpu.berr = s.cpu.berr
  ahead : t.cpu.ahead = s.cpu.ahead
  hbl : t.arb.hbl = s.arb.hbl
  vbl : t.arb.vbl = s.arb.vbl
  ym : t.ym = s.ym
  wd : t.wd = s.wd
  disk : t.disk = s.disk
  acia : t.acia = s.acia
  ikbd : t.ikbd = s.ikbd
  video : t.video = s.video
  loop : t.loop = s.loop
  mem : t.mem = s.mem
  ramGen : t.ramGen = s.ramGen
  host : t.host = s.host
  ops : t.ops = s.ops
  bus : t.bus = s.bus
  draws : t.draws = s.draws
  faults : t.faults = s.faults
  refused : t.refused = s.refused

/-- What a device access of the bus leaves alone: the core but for the IPL, the HBL and VBL flags, the video, the
frame loop, the outside world and the marks. -/
structure DevFrame (s t : State) : Prop where
  params : t.params = s.params
  regs : t.cpu.regs = s.cpu.regs
  clock : t.cpu.clock = s.cpu.clock
  stopped : t.cpu.stopped = s.cpu.stopped
  ir : t.cpu.ir = s.cpu.ir
  ipc : t.cpu.ipc = s.cpu.ipc
  berr : t.cpu.berr = s.cpu.berr
  ahead : t.cpu.ahead = s.cpu.ahead
  hbl : t.arb.hbl = s.arb.hbl
  vbl : t.arb.vbl = s.arb.vbl
  video : t.video = s.video
  loop : t.loop = s.loop
  host : t.host = s.host
  ops : t.ops = s.ops
  bus : t.bus = s.bus
  faults : t.faults = s.faults
  refused : t.refused = s.refused

theorem IrqFrame.refl (s : State) : IrqFrame s s := by constructor <;> rfl

theorem IrqFrame.trans {s t u : State} (h : IrqFrame s t) (k : IrqFrame t u) : IrqFrame s u where
  params := k.params.trans h.params
  regs := k.regs.trans h.regs
  clock := k.clock.trans h.clock
  stopped := k.stopped.trans h.stopped
  ir := k.ir.trans h.ir
  ipc := k.ipc.trans h.ipc
  berr := k.berr.trans h.berr
  ahead := k.ahead.trans h.ahead
  hbl := k.hbl.trans h.hbl
  vbl := k.vbl.trans h.vbl
  ym := k.ym.trans h.ym
  wd := k.wd.trans h.wd
  disk := k.disk.trans h.disk
  acia := k.acia.trans h.acia
  ikbd := k.ikbd.trans h.ikbd
  video := k.video.trans h.video
  loop := k.loop.trans h.loop
  mem := k.mem.trans h.mem
  ramGen := k.ramGen.trans h.ramGen
  host := k.host.trans h.host
  ops := k.ops.trans h.ops
  bus := k.bus.trans h.bus
  draws := k.draws.trans h.draws
  faults := k.faults.trans h.faults
  refused := k.refused.trans h.refused

theorem DevFrame.refl (s : State) : DevFrame s s := by constructor <;> rfl

theorem DevFrame.trans {s t u : State} (h : DevFrame s t) (k : DevFrame t u) : DevFrame s u where
  params := k.params.trans h.params
  regs := k.regs.trans h.regs
  clock := k.clock.trans h.clock
  stopped := k.stopped.trans h.stopped
  ir := k.ir.trans h.ir
  ipc := k.ipc.trans h.ipc
  berr := k.berr.trans h.berr
  ahead := k.ahead.trans h.ahead
  hbl := k.hbl.trans h.hbl
  vbl := k.vbl.trans h.vbl
  video := k.video.trans h.video
  loop := k.loop.trans h.loop
  host := k.host.trans h.host
  ops := k.ops.trans h.ops
  bus := k.bus.trans h.bus
  faults := k.faults.trans h.faults
  refused := k.refused.trans h.refused

theorem IrqFrame.dev {s t : State} (h : IrqFrame s t) : DevFrame s t where
  params := h.params
  regs := h.regs
  clock := h.clock
  stopped := h.stopped
  ir := h.ir
  ipc := h.ipc
  berr := h.berr
  ahead := h.ahead
  hbl := h.hbl
  vbl := h.vbl
  video := h.video
  loop := h.loop
  host := h.host
  ops := h.ops
  bus := h.bus
  faults := h.faults
  refused := h.refused

/-! The MFP. -/

theorem withMfp_irq (m : Mfp) (s : State) : IrqFrame s { s with mfp := m } := by constructor <;> rfl

theorem updateIrq_irq (s : State) : IrqFrame s (updateIrq s) := by constructor <;> rfl

theorem setMfpIrq_irq (m : Mfp) (s : State) : IrqFrame s (setMfpIrq m s) := by constructor <;> rfl

theorem raiseChannel_irq (n : Nat) (s : State) : IrqFrame s (raiseChannel n s) := by
  unfold raiseChannel
  split
  · exact updateIrq_irq s
  · exact setMfpIrq_irq _ s

theorem raiseIf_irq (e : Bool) (n : Nat) (s : State) : IrqFrame s (if e then raiseChannel n s else s) := by
  cases e
  · exact .refl s
  · exact raiseChannel_irq n s

theorem setGpip_irq (l : GpipLine) (b : Bool) (s : State) : IrqFrame s (setGpip l b s) :=
  ((withMfp_irq _ s).trans (raiseIf_irq _ _ _)).trans (updateIrq_irq _)

theorem storeCount_irq (t : Timer) (p : Nat) (c : Nat × Bool) (s : State) : IrqFrame s (storeCount t p c s) := by
  unfold storeCount
  dsimp only
  split
  · exact (withMfp_irq _ s).trans (raiseChannel_irq _ _)
  · exact withMfp_irq _ s

theorem tickDelay_irq (t : Timer) (n : Nat) (s : State) : IrqFrame s (tickDelay t n s) := by
  unfold tickDelay
  split
  · exact .refl s
  · exact storeCount_irq _ _ _ s

theorem updateTimers_irq (n : Nat) (s : State) : IrqFrame s (updateTimers n s) := by
  unfold updateTimers
  exact (withMfp_irq _ s).trans <| (tickDelay_irq _ _ _).trans <| (tickDelay_irq _ _ _).trans <|
    (tickDelay_irq _ _ _).trans (tickDelay_irq _ _ _)

theorem tickEvent_irq (t : Timer) (s : State) : IrqFrame s (tickEvent t s) := by
  unfold tickEvent
  split
  · exact storeCount_irq _ _ _ s
  · exact .refl s

theorem mfpIack_irq (s : State) : IrqFrame s (mfpIack s).2 := by
  unfold mfpIack
  split
  · exact .refl s
  · exact setMfpIrq_irq _ s

theorem mfpWrite_irq (r : MfpReg) (v : Byte) (s : State) : IrqFrame s (mfpWrite r v s) := by
  cases r <;> constructor <;> rfl

/-! The YM2149, the ACIA and the IKBD. -/

theorem ymWriteData_dev (v : Byte) (s : State) : DevFrame s (ymWriteData v s) := by
  unfold ymWriteData
  dsimp only
  split
  · constructor <;> rfl
  · split <;> constructor <;> rfl

theorem aciaMasterReset_dev (s : State) : DevFrame s (aciaMasterReset s) := by
  unfold aciaMasterReset
  exact .trans (by constructor <;> rfl) (setGpip_irq _ _ _).dev

theorem aciaControlWrite_dev (v : Byte) (s : State) : DevFrame s (aciaControlWrite v s) := by
  unfold aciaControlWrite
  dsimp only
  split
  · exact .trans (by constructor <;> rfl) (aciaMasterReset_dev _)
  · constructor <;> rfl

theorem aciaDataRead_dev (s : State) : DevFrame s (aciaDataRead s).2 := by
  unfold aciaDataRead
  exact .trans (by constructor <;> rfl) (setGpip_irq _ _ _).dev

theorem aciaSync_dev (n : Nat) (s : State) : DevFrame s (aciaSync n s) := by
  unfold aciaSync
  split
  · exact .refl s
  · split
    · constructor <;> rfl
    · split
      · unfold aciaLatch
        exact .trans (by constructor <;> rfl) (setGpip_irq _ _ _).dev
      · constructor <;> rfl

theorem ikbdExecute_dev (c : List Byte) (s : State) : DevFrame s (ikbdExecute c s) := by
  unfold ikbdExecute ikbdResetCmd
  repeat' split
  all_goals constructor <;> rfl

theorem ikbdReceive_dev (b : Byte) (s : State) : DevFrame s (ikbdReceive b s) := by
  unfold ikbdReceive
  dsimp only
  split
  · constructor <;> rfl
  · split
    · exact (ikbdExecute_dev _ s).trans (by constructor <;> rfl)
    · constructor <;> rfl

/-! The WD1772 and the DMA. -/

theorem withWd_dev (w : Wd) (s : State) : DevFrame s { s with wd := w } := by constructor <;> rfl

theorem ramWrite_dev (a : Addr) (b : Byte) (s : State) : DevFrame s (ramWrite a b s) := by
  unfold ramWrite
  split
  · constructor <;> rfl
  · exact .refl s

theorem dmaPutAll_dev (bs : List Byte) (s : State) : DevFrame s (dmaPutAll bs s) := by
  induction bs generalizing s with
  | nil => exact .refl s
  | cons b t ih =>
    unfold dmaPutAll dmaPut
    exact ((ramWrite_dev _ _ s).trans (withWd_dev _ _)).trans (ih _)

theorem dmaGetAll_dev (n : Nat) (s : State) : DevFrame s (dmaGetAll n s).2 := by
  induction n generalizing s with
  | zero => exact .refl s
  | succ n ih => exact (withWd_dev _ s).trans (ih _)

theorem wdComplete_dev (s : State) : DevFrame s (wdComplete s) := by
  unfold wdComplete
  exact (withWd_dev _ s).trans (setGpip_irq _ _ _).dev

theorem finishWith_dev (b : Byte) (s : State) : DevFrame s (finishWith b s) := by
  unfold finishWith
  exact (withWd_dev _ s).trans (wdComplete_dev _)

theorem wdFail_dev (b : Byte) (s : State) : DevFrame s (wdFail b s) := by
  unfold wdFail
  exact (withWd_dev _ s).trans (wdComplete_dev _)

theorem wdBegin_dev (c : Byte) (s : State) : DevFrame s (wdBegin c s) := by
  unfold wdBegin
  exact ((withWd_dev _ s).trans (setGpip_irq _ _ _).dev).trans (withWd_dev _ _)

theorem readOne_dev {d : Floppy} {s t : State} (h : readOne d s = some t) : DevFrame s t := by
  unfold readOne at h
  split at h
  · cases h
  · cases h; exact dmaPutAll_dev _ s

theorem writeOne_dev {d : Floppy} {s t : State} (h : writeOne d s = some t) : DevFrame s t := by
  unfold writeOne at h
  split at h
  · cases h
  · cases h; exact (dmaGetAll_dev _ s).trans (by constructor <;> rfl)

theorem readMany_dev (d : Floppy) (n : Nat) (s : State) : DevFrame s (readMany d n s).2 := by
  induction n generalizing s with
  | zero => exact .refl s
  | succ n ih =>
    unfold readMany
    split
    · exact .refl s
    · next h => exact ((readOne_dev h).trans (withWd_dev _ _)).trans (ih _)

theorem writeMany_dev (n : Nat) (s : State) : DevFrame s (writeMany n s).2 := by
  induction n generalizing s with
  | zero => exact .refl s
  | succ n ih =>
    unfold writeMany
    split
    · exact .refl s
    · split
      · exact .refl s
      · next h => exact ((writeOne_dev h).trans (withWd_dev _ _)).trans (ih _)

theorem finishMany_dev {r : Bool × State} {s : State} (h : DevFrame s r.2) : DevFrame s (finishMany r) := by
  unfold finishMany
  split
  · exact h.trans (finishWith_dev _ _)
  · exact h.trans (wdFail_dev _ _)

theorem drawBytes_dev (n : Nat) (s : State) : DevFrame s (drawBytes n s).2 := by
  induction n generalizing s with
  | zero => exact .refl s
  | succ n ih => exact .trans (by constructor <;> rfl) (ih (nextDraw s))

theorem cmdReadSector_dev (s : State) : DevFrame s (cmdReadSector s) := by
  unfold cmdReadSector
  refine .trans (show DevFrame s (setMulti false s) by constructor <;> rfl) ?_
  dsimp only
  split
  · exact wdFail_dev _ _
  · split
    · exact wdFail_dev _ _
    · next h => exact ((readOne_dev h).trans (withWd_dev _ _)).trans (finishWith_dev _ _)

theorem cmdReadMulti_dev (s : State) : DevFrame s (cmdReadMulti s) := by
  unfold cmdReadMulti
  refine .trans (show DevFrame s (setMulti true s) by constructor <;> rfl) ?_
  dsimp only
  split
  · exact wdFail_dev _ _
  · exact finishMany_dev (readMany_dev _ _ _)

theorem cmdWriteSector_dev (s : State) : DevFrame s (cmdWriteSector s) := by
  unfold cmdWriteSector
  refine .trans (show DevFrame s (setMulti false s) by constructor <;> rfl) ?_
  dsimp only
  split
  · exact wdFail_dev _ _
  · split
    · exact wdFail_dev _ _
    · split
      · exact wdFail_dev _ _
      · next h => exact ((writeOne_dev h).trans (withWd_dev _ _)).trans (finishWith_dev _ _)

theorem cmdWriteMulti_dev (s : State) : DevFrame s (cmdWriteMulti s) := by
  unfold cmdWriteMulti
  refine .trans (show DevFrame s (setMulti true s) by constructor <;> rfl) ?_
  dsimp only
  split
  · exact wdFail_dev _ _
  · split
    · exact wdFail_dev _ _
    · exact finishMany_dev (writeMany_dev _ _)

theorem finishType1_dev (s : State) : DevFrame s (finishType1 s) := by
  unfold finishType1
  exact finishWith_dev _ s

theorem cmdReadAddress_dev (s : State) : DevFrame s (cmdReadAddress s) := by
  unfold cmdReadAddress
  split
  · exact wdFail_dev _ s
  · exact (dmaPutAll_dev _ s).trans (finishWith_dev _ _)

theorem cmdForceInterrupt_dev (s : State) : DevFrame s (cmdForceInterrupt s) := by
  unfold cmdForceInterrupt
  exact (withWd_dev _ s).trans (setGpip_irq _ _ _).dev

theorem havocTrack_dev (s : State) : DevFrame s (havocTrack s) := by
  unfold havocTrack
  split
  · exact .refl s
  · exact (drawBytes_dev _ s).trans (by constructor <;> rfl)

theorem cmdReadTrack_dev {s t : State} (h : cmdReadTrack s = .next t) : DevFrame s t := by
  unfold cmdReadTrack at h
  split at h
  · cases h
  · cases h; exact (wdComplete_dev s).trans (by constructor <;> rfl)

theorem cmdWriteTrack_dev {s t : State} (h : cmdWriteTrack s = .next t) : DevFrame s t := by
  unfold cmdWriteTrack at h
  split at h
  · cases h
  · cases h
    exact ((wdComplete_dev s).trans (show DevFrame _ (havocRegs _) by constructor <;> rfl)).trans (havocTrack_dev _)

theorem commandWrite_dev {c : Byte} {s t : State} (h : commandWrite c s = .next t) : DevFrame s t := by
  unfold commandWrite at h
  refine (wdBegin_dev c s).trans ?_
  generalize wdBegin c s = s1 at h ⊢
  dsimp only at h
  have step1 : ∀ w : Wd, DevFrame s1 (finishType1 { s1 with wd := w }) := fun w =>
    (withWd_dev w s1).trans (finishType1_dev _)
  split at h
  · cases h; exact step1 _
  · cases h; exact step1 _
  · cases h; exact step1 _
  · cases h; exact step1 _
  · cases h; exact step1 _
  · cases h; exact step1 _
  · cases h; exact step1 _
  · cases h; exact step1 _
  · cases h; exact cmdReadSector_dev s1
  · cases h; exact cmdReadMulti_dev s1
  · cases h; exact cmdWriteSector_dev s1
  · cases h; exact cmdWriteMulti_dev s1
  · cases h; exact cmdReadAddress_dev s1
  · cases h; exact cmdForceInterrupt_dev s1
  · exact cmdReadTrack_dev h
  · exact cmdWriteTrack_dev h

theorem fdcWrite_dev {v : Byte} {s t : State} (h : fdcWrite v s = .next t) : DevFrame s t := by
  unfold fdcWrite at h
  split at h
  · cases h; exact withWd_dev _ s
  · split at h
    · cases h; exact .refl s
    · split at h
      · exact commandWrite_dev h
      all_goals cases h; exact withWd_dev _ s

theorem fdcRead_dev (s : State) : DevFrame s (fdcRead s).2 := by
  unfold fdcRead
  repeat' split
  all_goals first | exact (setGpip_irq _ _ s).dev | exact .refl s

/-! The bus, past its bus-error check. -/

theorem deviceRead8_dev (r : IoReg) (s : State) : DevFrame s (deviceRead8 r s).2 := by
  cases r <;> first | exact .refl s | exact fdcRead_dev s | exact aciaDataRead_dev s

theorem deviceWrite8_dev {r : IoReg} {v : Byte} {s t : State} (h : deviceWrite8 r v s = .next t) :
    DevFrame s t := by
  cases r <;> simp only [deviceWrite8, Host.Outcome.next.injEq] at h
  case fdcDataLo => exact fdcWrite_dev h
  all_goals subst h
  case fdcDataHi => exact .refl s
  case ymData => exact ymWriteData_dev v s
  case mfp r => exact (mfpWrite_irq r v s).dev
  case aciaControl => exact aciaControlWrite_dev v s
  case aciaData => exact ikbdReceive_dev v s
  all_goals constructor <;> rfl

theorem read8_dev (a : Addr) (s : State) : DevFrame s (read8 a s).2 := by
  unfold read8
  split
  · split
    · exact deviceRead8_dev _ s
    · exact .refl s
  all_goals exact .refl s

theorem read16_dev (a : Addr) (s : State) : DevFrame s (read16 a s).2 := by
  unfold read16
  split
  · exact fdcRead_dev s
  · split
    · exact .refl s
    · exact (read8_dev _ s).trans (read8_dev _ _)

theorem readRaw_dev (w : Width) (a : Addr) (s : State) : DevFrame s (readRaw w a s).2 := by
  cases w
  · exact read8_dev a s
  · exact read16_dev a s
  · exact (read16_dev _ s).trans (read16_dev _ _)

theorem andThen_next {o : Host.Outcome State Fault Refusal} {f : State → Host.Outcome State Fault Refusal}
    {t : State} (h : andThen o f = .next t) : ∃ u, o = .next u ∧ f u = .next t := by
  cases o with
  | next u => exact ⟨u, rfl, h⟩
  | fault r => cases h
  | refused r => cases h

theorem write8_dev {a : Addr} {v : Byte} {s t : State} (h : write8 a v s = .next t) : DevFrame s t := by
  unfold write8 at h
  split at h
  · cases h; exact .refl s
  · cases h; constructor <;> rfl
  · split at h
    · exact deviceWrite8_dev h
    · cases h; constructor <;> rfl
  · cases h; exact .refl s

theorem write16_dev {a : Addr} {v : Half} {s t : State} (h : write16 a v s = .next t) : DevFrame s t := by
  unfold write16 at h
  split at h
  · exact fdcWrite_dev h
  · split at h
    · cases h; constructor <;> rfl
    · obtain ⟨u, h1, h2⟩ := andThen_next h
      exact (write8_dev h1).trans (write8_dev h2)

/-- Everything a write of the bus can do to the core: nothing but the IPL. -/
theorem writeRaw_dev {w : Width} {a : Addr} {v : Word} {s t : State} (h : writeRaw w a v s = .next t) :
    DevFrame s t := by
  cases w
  · exact write8_dev h
  · exact write16_dev h
  · obtain ⟨u, h1, h2⟩ := andThen_next h
    exact (write16_dev h1).trans (write16_dev h2)

theorem frameWrite_dev {w : Width} {a v : Word} {s t : State} (h : frameWrite w a v s = .next t) :
    DevFrame s t := by
  unfold frameWrite at h
  split at h
  · split at h
    · cases h; exact .refl s
    · cases h
  · exact writeRaw_dev h

end Sys2Proof.Machine
end

