-- ==== Sys2Proof/Laws/Memory.lean ====
section
/-! SUPPORT. Laws/Memory.lean: the one list of memory: a read after a write, and that every operation keeps the
canonical form. -/

namespace Sys2Proof.Machine

theorem memFind_memPut_ne {k k' : Nat} (h : k' ≠ k) (v : Byte) (m : Memory) :
    memFind (memPut m k v) k' = memFind m k' := by
  induction m with
  | nil => unfold memPut; split <;> simp [memFind, h.symm]
  | cons c t ih =>
    obtain ⟨k0, v0⟩ := c
    unfold memPut
    split
    · split <;> simp [memFind, h.symm]
    · split
      · next e => subst e; split <;> simp [memFind, h.symm]
      · simp [memFind, ih]

theorem keysAbove_find {k : Nat} {m : Memory} (h : keysAbove k m = true) {k' : Nat} (hk : k' ≤ k) :
    memFind m k' = none := by
  induction m with
  | nil => rfl
  | cons c t ih =>
    obtain ⟨k0, v0⟩ := c
    simp only [keysAbove, Bool.and_eq_true, decide_eq_true_eq] at h
    simp only [memFind]
    rw [if_neg (by omega)]
    exact ih h.2

theorem keysAbove_mono {k k' : Nat} (hk : k' ≤ k) {m : Memory} (h : keysAbove k m = true) :
    keysAbove k' m = true := by
  induction m with
  | nil => rfl
  | cons c t ih =>
    obtain ⟨k0, v0⟩ := c
    simp only [keysAbove, Bool.and_eq_true, decide_eq_true_eq] at h ⊢
    exact ⟨by omega, ih h.2⟩

theorem keysAbove_memPut {k0 k : Nat} (hk : k0 < k) (v : Byte) {m : Memory} (h : keysAbove k0 m = true) :
    keysAbove k0 (memPut m k v) = true := by
  induction m with
  | nil => unfold memPut; split <;> simp [keysAbove, hk]
  | cons c t ih =>
    obtain ⟨k1, v1⟩ := c
    simp only [keysAbove, Bool.and_eq_true, decide_eq_true_eq] at h
    unfold memPut
    split
    · split <;> simp [keysAbove, hk, h]
    · split
      · split <;> simp [keysAbove, hk, h]
      · simp [keysAbove, h, ih h.2]

theorem memWf_memPut {m : Memory} (h : memWf m = true) (k : Nat) (v : Byte) : memWf (memPut m k v) = true := by
  induction m with
  | nil => unfold memPut; split <;> simp_all [memWf, keysAbove]
  | cons c t ih =>
    obtain ⟨k0, v0⟩ := c
    simp only [memWf, Bool.and_eq_true, decide_eq_true_eq] at h
    obtain ⟨⟨hk, hv⟩, ht⟩ := h
    unfold memPut
    split
    · next hlt =>
      split
      · simp [memWf, hk, hv, ht]
      · next hu => simp [memWf, keysAbove, hk, hv, ht, hu, hlt, keysAbove_mono (Nat.le_of_lt hlt) hk]
    · split
      · next e =>
        subst e
        split
        · exact ht
        · next hu => simp [memWf, hk, ht, hu]
      · next h1 h2 => simp [memWf, hv, ih ht, keysAbove_memPut (show k0 < k by omega) v hk]

/-- A read after a write to the same key gives the byte written. -/
theorem storedByte_storeByte_same {s : State} (h : memWf s.mem = true) (k : Nat) (v : Byte) :
    storedByte (storeByte k v s) k = v := by
  have key : ∀ m : Memory, memWf m = true →
      memFind (memPut m k v) k = some v ∨ (memFind (memPut m k v) k = none ∧ unlisted k = some v) := by
    intro m hm
    induction m with
    | nil => unfold memPut; split <;> simp_all [memFind]
    | cons c t ih =>
      obtain ⟨k0, v0⟩ := c
      simp only [memWf, Bool.and_eq_true, decide_eq_true_eq] at hm
      obtain ⟨⟨hk, hv⟩, ht⟩ := hm
      unfold memPut
      split
      · next hlt =>
        split
        · next hu =>
          refine .inr ⟨?_, hu⟩
          simp only [memFind]
          rw [if_neg (by omega)]
          exact keysAbove_find hk (by omega)
        · exact .inl (by simp [memFind])
      · split
        · next e =>
          subst e
          split
          · next hu => exact .inr ⟨keysAbove_find hk (Nat.le_refl _), hu⟩
          · exact .inl (by simp [memFind])
        · next h1 h2 =>
          have : ¬ k0 = k := by omega
          simp only [memFind, if_neg this]
          exact ih ht
  unfold storedByte
  rcases key s.mem h with h1 | ⟨h1, h2⟩
  · simp [h1]
  · simp only [storeByte, h1]
    unfold unlisted at h2
    split at h2
    · next hio => simp only [powerOnByte, if_pos hio]; simpa using h2
    · simp at h2

/-- A write leaves every other key alone. -/
theorem storedByte_storeByte_ne {k k' : Nat} (h : k' ≠ k) (v : Byte) (s : State) :
    storedByte (storeByte k v s) k' = storedByte s k' := by
  unfold storedByte
  simp only [storeByte_written, memFind_memPut_ne h]
  rfl

theorem keysAbove_dropRam {k : Nat} (n : Nat) {m : Memory} (h : keysAbove k m = true) :
    keysAbove k (dropRam n m) = true := by
  induction m with
  | nil => rfl
  | cons c t ih =>
    obtain ⟨k0, v0⟩ := c
    simp only [keysAbove, Bool.and_eq_true, decide_eq_true_eq] at h
    unfold dropRam
    split
    · exact ih h.2
    · simp [keysAbove, h.1, ih h.2]

theorem memWf_dropRam (n : Nat) {m : Memory} (h : memWf m = true) : memWf (dropRam n m) = true := by
  induction m with
  | nil => rfl
  | cons c t ih =>
    obtain ⟨k0, v0⟩ := c
    simp only [memWf, Bool.and_eq_true, decide_eq_true_eq] at h
    unfold dropRam
    split
    · exact ih h.2
    · simp [memWf, h.1.2, ih h.2, keysAbove_dropRam n h.1.1]

theorem memFind_dropRam {n k : Nat} (h : n ≤ k) (m : Memory) : memFind (dropRam n m) k = memFind m k := by
  induction m with
  | nil => rfl
  | cons c t ih =>
    obtain ⟨k0, v0⟩ := c
    unfold dropRam
    split
    · next hlt => simp only [memFind]; rw [if_neg (by omega)]; exact ih
    · simp [memFind, ih]

/-- Storing a byte keeps the canonical form. -/
theorem storeByte_memWf {s : State} (h : memWf s.mem = true) (k : Nat) (v : Byte) :
    memWf (storeByte k v s).mem = true := memWf_memPut h k v

/-- A DMA write keeps the canonical form. -/
theorem ramWrite_memWf {s : State} (h : memWf s.mem = true) (a : Addr) (b : Byte) :
    memWf (ramWrite a b s).mem = true := by
  unfold ramWrite
  split
  · exact storeByte_memWf h _ _
  · exact h

/-- New draws for RAM keep the canonical form. -/
theorem havocRam_memWf {s : State} (h : memWf s.mem = true) : memWf (havocRam s).mem = true := memWf_dropRam _ h

/-- The video write-back keeps the canonical form. -/
theorem videoWriteBack_memWf {s : State} (h : memWf s.mem = true) : memWf (videoWriteBack s).mem = true := by
  unfold videoWriteBack
  exact storeByte_memWf (storeByte_memWf (storeByte_memWf h _ _) _ _) _ _

theorem keysAbove_romCells {k k' : Nat} (hk : k < k') (bs : List Byte) : keysAbove k (romCells k' bs) = true := by
  induction bs generalizing k' with
  | nil => rfl
  | cons b t ih => simp [romCells, keysAbove, hk, ih (Nat.lt_succ_of_lt hk)]

/-- A ROM image below the I/O page is in canonical form. -/
theorem memWf_romCells {k : Nat} (bs : List Byte) (h : k + bs.length ≤ ioBase) :
    memWf (romCells k bs) = true := by
  induction bs generalizing k with
  | nil => rfl
  | cons b t ih =>
    simp only [List.length_cons] at h
    have hu : unlisted k ≠ some b := by
      unfold unlisted
      rw [if_neg (by omega)]
      simp
    simp [romCells, memWf, keysAbove_romCells (Nat.lt_succ_self k), hu, ih (show k + 1 + t.length ≤ ioBase by omega)]

/-- The reset memory is in canonical form. -/
theorem reset_memWf : memWf State.reset.mem = true := rfl

end Sys2Proof.Machine
end

