-- ==== Sys2Proof/Laws/Bus.lean ====
section
/-! SUPPORT. Laws/Bus.lean: what the bus accessors do in each region (20_memory.md R82, R84, R87), and that a bus-error
range is an I/O address. -/

namespace Sys2Proof.Machine

theorem tosBase_le (p : Config.Params) : tosBase p + tosBytes p ≤ ioBase := by
  unfold tosBase tosBytes ioBase
  cases p.tosSize <;> decide

theorem ramBytes_le (p : Config.Params) : ramBytes p ≤ tosBase p := by
  unfold ramBytes tosBase
  cases p.ramSize <;> cases p.tosSize <;> decide

theorem eight_lt_ramBytes (p : Config.Params) : 8 < ramBytes p := by
  unfold ramBytes
  cases p.ramSize <;> decide

/-- An I/O address is in no other region (R82). -/
theorem region_io {p : Config.Params} {a : Addr} (h : 0xFF8000 ≤ a.toNat) : region p a = .io := by
  have h1 := tosBase_le p
  have h2 := ramBytes_le p
  have h3 := eight_lt_ramBytes p
  unfold ioBase at h1
  unfold region
  rw [if_neg (by omega), if_neg (by omega), if_neg (by omega), if_pos (show ioBase ≤ a.toNat from h)]

/-- A RAM address above the ROM mirror (R82). -/
theorem region_ram {p : Config.Params} {a : Addr} (h : 8 ≤ a.toNat) (k : a.toNat < ramBytes p) :
    region p a = .ram a.toNat := by
  unfold region
  rw [if_neg (by omega), if_pos k]

/-- The ROM mirror (R82, R92). -/
theorem region_low {p : Config.Params} {a : Addr} (h : a.toNat < 8) : region p a = .rom a.toNat := by
  unfold region
  rw [if_pos h]

/-- The ROM (R82). -/
theorem region_rom {p : Config.Params} {a : Addr} (h : tosBase p ≤ a.toNat) (k : a.toNat < tosBase p + tosBytes p) :
    region p a = .rom (a.toNat - tosBase p) := by
  have h2 := ramBytes_le p
  have h3 := eight_lt_ramBytes p
  unfold region
  rw [if_neg (by omega), if_neg (by omega), if_pos ⟨h, k⟩]

/-- The two unmapped stretches (R82, R92). -/
theorem region_unmapped {p : Config.Params} {a : Addr}
    (h : (ramBytes p ≤ a.toNat ∧ a.toNat < tosBase p) ∨ (tosBase p + tosBytes p ≤ a.toNat ∧ a.toNat < 0xFF8000)) :
    region p a = .unmapped := by
  have h2 := ramBytes_le p
  have h3 := eight_lt_ramBytes p
  unfold region
  have h1 := tosBase_le p
  unfold ioBase at h1
  have h4 : 0 < tosBytes p := by unfold tosBytes; cases p.tosSize <;> decide
  rw [if_neg (by omega), if_neg (by omega), if_neg (by omega), if_neg (show ¬ ioBase ≤ a.toNat by unfold ioBase; omega)]

theorem berrUnit_io {a : Addr} (h : (berrUnit a).isSome = true) : 0xFF8000 ≤ a.toNat := by
  unfold berrUnit at h
  repeat' split at h
  all_goals first | omega | cases h

/-- An access whose bytes all lie below the I/O page raises no bus error (R90). -/
theorem firstBusError_none {w : Width} {a : Addr}
    (h : ∀ b ∈ accessAddrs w a, b.toNat < 0xFF8000) : firstBusError w a = none := by
  unfold firstBusError
  rw [List.find?_eq_none]
  intro b hb e
  have := h b hb
  have := berrUnit_io e
  omega

theorem read8_io {a : Addr} (h : 0xFF8000 ≤ a.toNat) (s : State) :
    read8 a s = match ioReg a with
      | some r => deviceRead8 r s
      | none => (storedByte s a.toNat, s) := by
  unfold read8
  first | (rw [region_io h]; done) | (rw [region_io h]; rfl)

theorem write8_io {a : Addr} (h : 0xFF8000 ≤ a.toNat) (v : Byte) (s : State) :
    write8 a v s = match ioReg a with
      | some r => deviceWrite8 r v s
      | none => .next (storeByte a.toNat v s) := by
  unfold write8
  first | (rw [region_io h]; done) | (rw [region_io h]; rfl)

theorem write8_ram {a : Addr} {s : State} (h : 8 ≤ a.toNat) (k : a.toNat < ramBytes s.params) (v : Byte) :
    write8 a v s = .next (storeByte a.toNat v s) := by
  unfold write8
  rw [region_ram h k]

theorem read8_ram {a : Addr} {s : State} (h : 8 ≤ a.toNat) (k : a.toNat < ramBytes s.params) :
    read8 a s = (storedByte s a.toNat, s) := by
  unfold read8 peekByte
  rw [region_ram h k]

theorem peekByte_ram {a : Addr} {s : State} (h : 8 ≤ a.toNat) (k : a.toNat < ramBytes s.params) :
    peekByte s a = storedByte s a.toNat := by
  unfold peekByte
  rw [region_ram h k]

/-- A claimed register has an I/O address (R88). -/
theorem ioReg_io {a : Addr} {r : IoReg} (h : ioReg a = some r) : 0xFF8000 ≤ a.toNat := by
  have low : ∀ (l : List (Nat × IoReg)), (∀ c ∈ l, 0xFF8000 ≤ c.1) → ∀ x, tableFind l a.toNat = some x →
      0xFF8000 ≤ a.toNat := fun l hl x hx => hl _ (tableFind_mem hx)
  unfold ioReg at h
  split at h
  · next x hx => exact low _ (by decide) _ hx
  · exact low _ (by decide) _ h

/-- A read never looks at the value of the last one (the latch of log 13). -/
theorem deviceRead8_answer (r : IoReg) (v : Word) (s : State) :
    (deviceRead8 r (answer v s)).1 = (deviceRead8 r s).1
      ∧ (deviceRead8 r (answer v s)).2 = answer v (deviceRead8 r s).2 := by
  have gpip : ∀ l b (u : State), setGpip l b (answer v u) = answer v (setGpip l b u) := by
    intro l b u
    have raise : ∀ (e : Bool) (n : Nat) (x : State), updateIrq (if e then raiseChannel n (answer v x) else answer v x)
        = answer v (updateIrq (if e then raiseChannel n x else x)) := by
      intro e n x
      cases e
      · rfl
      · show updateIrq (raiseChannel n (answer v x)) = answer v (updateIrq (raiseChannel n x))
        unfold raiseChannel
        show updateIrq (if x.params.mfpIprGatedByIer && !ierBit x.mfp n then _ else _) = _
        split <;> rfl
    exact raise (if bit u.mfp.aer (lineBit l) then !bit u.mfp.gpip (lineBit l) && b
      else bit u.mfp.gpip (lineBit l) && !b) (lineChannel l)
      { u with mfp := { u.mfp with gpip := withBit u.mfp.gpip (lineBit l) b } }
  cases r
  case fdcDataLo =>
    show (fdcRead (answer v s)).1 = _ ∧ (fdcRead (answer v s)).2 = answer v (fdcRead s).2
    unfold fdcRead deviceRead8 fdcRead
    have e : (answer v s).wd = s.wd := rfl
    rw [e]
    split
    · exact ⟨rfl, rfl⟩
    · split
      · exact ⟨rfl, rfl⟩
      · split
        · exact ⟨rfl, gpip _ _ _⟩
        all_goals exact ⟨rfl, rfl⟩
  case aciaData =>
    refine ⟨rfl, ?_⟩
    exact gpip .acia true { s with acia := { s.acia with
      hasLatched := false, status := s.acia.status &&& 0x4E#8 } }
  all_goals exact ⟨rfl, rfl⟩

/-- An access inside one that raises no bus error raises none (R90). -/
theorem firstBusError_sub {w w' : Width} {a b : Addr} (h : firstBusError w a = none)
    (hs : ∀ x ∈ accessAddrs w' b, x ∈ accessAddrs w a) : firstBusError w' b = none := by
  unfold firstBusError at *
  rw [List.find?_eq_none] at *
  exact fun x hx => h x (hs x hx)

theorem firstBusError_word {a : Addr} (h : firstBusError .word a = none) : firstBusError .byte a = none ∧ firstBusError .byte (a+1) = none := by
  constructor <;> refine firstBusError_sub h ?_ <;> simp [accessAddrs, widthBytes, List.range_succ]

theorem firstBusError_long {a : Addr} (h : firstBusError .long a = none) : firstBusError .word a = none ∧ firstBusError .word (a+2) = none := by
  constructor <;> refine firstBusError_sub h ?_ <;> simp [accessAddrs, widthBytes, List.range_succ]
  right
  bv_omega

/-- A read never looks at the value of the last one. -/
theorem read8_answer (a : Addr) (v : Word) (s : State) : (read8 a (answer v s)).1 = (read8 a s).1 ∧ (read8 a (answer v s)).2 = answer v (read8 a s).2 := by
  have hp : peekByte (answer v s) a = peekByte s a := rfl
  unfold read8
  rw [hp, show (answer v s).params = s.params from rfl]
  cases region s.params a
  case io =>
    cases e : ioReg a with
    | some r => exact deviceRead8_answer r v s
    | none => exact ⟨rfl, rfl⟩
  all_goals exact ⟨rfl, rfl⟩

theorem fdcRead_answer (v : Word) (s : State) : (fdcRead (answer v s)).1 = (fdcRead s).1 ∧ (fdcRead (answer v s)).2 = answer v (fdcRead s).2 :=
  deviceRead8_answer .fdcDataLo v s

theorem read16_answer (a : Addr) (v : Word) (s : State) : (read16 a (answer v s)).1 = (read16 a s).1 ∧ (read16 a (answer v s)).2 = answer v (read16 a s).2 := by
  unfold read16
  split
  · have := fdcRead_answer v s
    exact ⟨by dsimp only; rw [this.1], this.2⟩
  · split
    · exact ⟨rfl, rfl⟩
    · have h1 := read8_answer a v s
      have h2 := read8_answer (a+1) v (read8 a s).2
      dsimp only
      rw [h1.2, h2.1, h2.2, h1.1]; exact ⟨rfl, rfl⟩

/-- A byte on the bus is in its low bits. -/
theorem low8 (b : Byte) : (b.setWidth 32).extractLsb' 0 8 = b := by
  apply BitVec.eq_of_toNat_eq
  have := b.isLt
  simp [BitVec.extractLsb'_toNat]
  omega

/-- A word on the bus is in its low bits. -/
theorem low16 (v : Half) : (v.setWidth 32).extractLsb' 0 16 = v := by
  apply BitVec.eq_of_toNat_eq
  have := v.isLt
  simp [BitVec.extractLsb'_toNat]
  omega

/-- A word written to RAM above the ROM mirror is its two bytes (R83, R91). -/
theorem write16_ram {a : Addr} {s : State} (h : 8 ≤ a.toNat) (k : a.toNat + 2 ≤ ramBytes s.params) (v : Half) :
    write16 a v s = .next (storeByte (a.toNat + 1) (lo8 v) (storeByte a.toNat (hi8 v) s)) := by
  have h2 := ramBytes_le s.params
  have h1 := tosBase_le s.params
  unfold ioBase at h1
  have e : (a + 1).toNat = a.toNat + 1 := by
    simp only [BitVec.toNat_add]
    show (a.toNat + 1) % 2 ^ 24 = _
    rw [Nat.mod_eq_of_lt (by omega)]
  have n1 : a ≠ 0xFF8604#24 := by rintro rfl; simp at k; omega
  have n2 : a ≠ 0xFF8606#24 := by rintro rfl; simp at k; omega
  unfold write16
  rw [if_neg n1, if_neg n2, write8_ram h (by omega)]
  show write8 (a + 1) (lo8 v) (storeByte a.toNat (hi8 v) s) = _
  rw [write8_ram (by omega) (by rw [e]; exact k), e]

/-- A word read from RAM above the ROM mirror (R83, R85). -/
theorem read16_ram {a : Addr} {s : State} (h : 8 ≤ a.toNat) (k : a.toNat + 2 ≤ ramBytes s.params) :
    read16 a s = (be16 (storedByte s a.toNat) (storedByte s (a.toNat + 1)), s) := by
  have h2 := ramBytes_le s.params
  have h1 := tosBase_le s.params
  unfold ioBase at h1
  have e : (a + 1).toNat = a.toNat + 1 := by
    simp only [BitVec.toNat_add]
    show (a.toNat + 1) % 2 ^ 24 = _
    rw [Nat.mod_eq_of_lt (by omega)]
  have n1 : a ≠ 0xFF8604#24 := by rintro rfl; simp at k; omega
  have n2 : a ≠ 0xFF8606#24 := by rintro rfl; simp at k; omega
  unfold read16
  rw [if_neg n1, if_neg n2, read8_ram h (by omega)]
  show (be16 _ (read8 (a + 1) s).1, (read8 (a + 1) s).2) = _
  rw [read8_ram (by omega) (by rw [e]; exact k), e]

/-- No access that lies in RAM raises a bus error (R90). -/
theorem firstBusError_ram {p : Config.Params} {a : Addr} {w : Width} (k : a.toNat + widthBytes w ≤ ramBytes p) :
    firstBusError w a = none := by
  have h2 := ramBytes_le p
  have h1 := tosBase_le p
  unfold ioBase at h1
  refine firstBusError_none fun b hb => ?_
  unfold accessAddrs at hb
  obtain ⟨i, hi, rfl⟩ := List.mem_map.mp hb
  have := List.mem_range.mp hi
  simp only [BitVec.toNat_add, BitVec.toNat_ofNat]
  omega

end Sys2Proof.Machine
end

