-- ==== Sys2Proof/Laws/Commands.lean ====
section
/-! SUPPORT. Laws/Commands.lean: a command byte written to the WD1772 is the row of the table its top nibble selects
(30_encoding.md R144). -/

namespace Sys2Proof.Machine

theorem high_nibble (n fl : BitVec 4) : (n ++ fl).extractLsb' 4 4 = n := by
  revert n fl; decide

theorem low_nibble (n fl : BitVec 4) : (n ++ fl).extractLsb' 0 4 = fl := by
  revert n fl; decide

/-- Every top nibble is one of the sixteen of R144. -/
theorem nibble_mem (n : BitVec 4) : n ∈ (List.range 16).map (BitVec.ofNat 4) := by
  revert n; decide

/-- The operation a command byte decodes to has the meaning the command write gives the byte (R144, R310). -/
theorem commandWrite_eq_exec (n fl : BitVec 4) (s : State) :
    commandWrite (n ++ fl) s = exec (decodeFdc (n ++ fl)) s := by
  have rows : ∀ x ∈ (List.range 16).map (BitVec.ofNat 4),
      commandWrite (x ++ fl) s = exec (decodeFdc (x ++ fl)) s := by
    unfold commandWrite decodeFdc
    simp only [high_nibble, low_nibble]
    exact List.forall_mem_map.2 fun k hk => by
      have := List.mem_range.1 hk
      interval_cases k <;> rfl
  exact rows n (nibble_mem n)

theorem fdcRestore_eq (fl : BitVec 4) (s : State) : exec (.fdcRestore fl) s = commandWrite (0x0#4 ++ fl) s := by
  unfold commandWrite; rw [high_nibble]; rfl
theorem fdcSeek_eq (fl : BitVec 4) (s : State) : exec (.fdcSeek fl) s = commandWrite (0x1#4 ++ fl) s := by
  unfold commandWrite; rw [high_nibble]; rfl
theorem fdcStep_eq (fl : BitVec 4) (s : State) : exec (.fdcStep fl) s = commandWrite (0x2#4 ++ fl) s := by
  unfold commandWrite; rw [high_nibble]; rfl
theorem fdcStepU_eq (fl : BitVec 4) (s : State) : exec (.fdcStepU fl) s = commandWrite (0x3#4 ++ fl) s := by
  unfold commandWrite; rw [high_nibble]; rfl
theorem fdcStepIn_eq (fl : BitVec 4) (s : State) : exec (.fdcStepIn fl) s = commandWrite (0x4#4 ++ fl) s := by
  unfold commandWrite; rw [high_nibble]; rfl
theorem fdcStepInU_eq (fl : BitVec 4) (s : State) : exec (.fdcStepInU fl) s = commandWrite (0x5#4 ++ fl) s := by
  unfold commandWrite; rw [high_nibble]; rfl
theorem fdcStepOut_eq (fl : BitVec 4) (s : State) : exec (.fdcStepOut fl) s = commandWrite (0x6#4 ++ fl) s := by
  unfold commandWrite; rw [high_nibble]; rfl
theorem fdcStepOutU_eq (fl : BitVec 4) (s : State) : exec (.fdcStepOutU fl) s = commandWrite (0x7#4 ++ fl) s := by
  unfold commandWrite; rw [high_nibble]; rfl
theorem fdcReadSector_eq (fl : BitVec 4) (s : State) :
    exec (.fdcReadSector fl) s = commandWrite (0x8#4 ++ fl) s := by
  unfold commandWrite; rw [high_nibble]; rfl
theorem fdcReadSectorMulti_eq (fl : BitVec 4) (s : State) :
    exec (.fdcReadSectorMulti fl) s = commandWrite (0x9#4 ++ fl) s := by
  unfold commandWrite; rw [high_nibble]; rfl
theorem fdcWriteSector_eq (fl : BitVec 4) (s : State) :
    exec (.fdcWriteSector fl) s = commandWrite (0xA#4 ++ fl) s := by
  unfold commandWrite; rw [high_nibble]; rfl
theorem fdcWriteSectorMulti_eq (fl : BitVec 4) (s : State) :
    exec (.fdcWriteSectorMulti fl) s = commandWrite (0xB#4 ++ fl) s := by
  unfold commandWrite; rw [high_nibble]; rfl
theorem fdcReadAddress_eq (fl : BitVec 4) (s : State) :
    exec (.fdcReadAddress fl) s = commandWrite (0xC#4 ++ fl) s := by
  unfold commandWrite; rw [high_nibble]; rfl
theorem fdcForceInterrupt_eq (fl : BitVec 4) (s : State) :
    exec (.fdcForceInterrupt fl) s = commandWrite (0xD#4 ++ fl) s := by
  unfold commandWrite; rw [high_nibble]; rfl
theorem fdcReadTrack_eq (fl : BitVec 4) (s : State) : exec (.fdcReadTrack fl) s = commandWrite (0xE#4 ++ fl) s := by
  unfold commandWrite; rw [high_nibble]; rfl
theorem fdcWriteTrack_eq (fl : BitVec 4) (s : State) :
    exec (.fdcWriteTrack fl) s = commandWrite (0xF#4 ++ fl) s := by
  unfold commandWrite; rw [high_nibble]; rfl

end Sys2Proof.Machine
end

