-- ==== Sys2Proof/Laws/Dma.lean ====
section
/-! SUPPORT. Laws/Dma.lean: what the DMA primitives do (43_wd1772_dma.md R309): where `dma_put` stores, what `dma_get`
returns, and how a sector of an image is replaced. -/

namespace Sys2Proof

open Machine

theorem ramWrite_frame (a : Addr) (b : Byte) (s : State) :
    ramWrite a b s = { s with mem := (ramWrite a b s).mem } := by
  unfold ramWrite
  split <;> rfl

theorem ramWrite_ok {a : Addr} {b : Byte} {s : State} (h : MemOk s) : MemOk (ramWrite a b s) := by
  unfold ramWrite
  split
  · exact memWf_memPut h _ _
  · exact h

theorem ramWrite_same {a : Addr} {b : Byte} {s : State} (h : MemOk s) (ha : a.toNat < ramBytes s.params) :
    storedByte (ramWrite a b s) a.toNat = b := by
  unfold ramWrite
  rw [if_pos ha]
  exact storedByte_storeByte_same h _ _

theorem ramWrite_ne {a : Addr} {b : Byte} {s : State} {k : Nat} (h : k < ramBytes s.params → k ≠ a.toNat) :
    storedByte (ramWrite a b s) k = storedByte s k := by
  unfold ramWrite
  split
  · next ha => exact storedByte_storeByte_ne (by by_cases hk : k < ramBytes s.params <;> [exact h hk; omega]) _ _
  · rfl

theorem dmaPut_eq (b : Byte) (s : State) : dmaPut b s = { s with
    mem := (ramWrite s.wd.dmaAddr b s).mem, wd := { s.wd with dmaAddr := s.wd.dmaAddr + 1 } } := by
  unfold dmaPut
  rw [ramWrite_frame]

theorem dmaPut_byte (b : Byte) (s : State) (k : Nat) :
    storedByte (dmaPut b s) k = storedByte (ramWrite s.wd.dmaAddr b s) k := rfl

theorem addr_succ (a : Addr) (n : Nat) : a + 1 + BitVec.ofNat 24 n = a + BitVec.ofNat 24 (n + 1) := by
  apply BitVec.eq_of_toNat_eq
  simp [BitVec.toNat_add]
  omega

/-- `dma_put` of a list: the address advances by its length, and only memory changes besides. -/
theorem dmaPutAll_frame (bs : List Byte) (s : State) : dmaPutAll bs s = { s with
    mem := (dmaPutAll bs s).mem
    wd := { s.wd with dmaAddr := s.wd.dmaAddr + BitVec.ofNat 24 bs.length } } := by
  induction bs generalizing s with
  | nil => simp [dmaPutAll]
  | cons b t ih =>
    rw [dmaPutAll, ih (dmaPut b s), dmaPut_eq]
    simp only [addr_succ, List.length_cons]

theorem dmaPutAll_ok {bs : List Byte} {s : State} (h : MemOk s) : MemOk (dmaPutAll bs s) := by
  induction bs generalizing s with
  | nil => exact h
  | cons b t ih =>
    refine ih ?_
    rw [dmaPut_eq]
    exact ramWrite_ok (a := s.wd.dmaAddr) (b := b) h

/-- `dma_put` of a list leaves every byte outside its window in RAM. -/
theorem dmaPutAll_ne {bs : List Byte} {s : State} {k : Nat} (h : ¬ dmaTarget s.params s.wd.dmaAddr bs.length k) :
    storedByte (dmaPutAll bs s) k = storedByte s k := by
  induction bs generalizing s with
  | nil => rfl
  | cons b t ih =>
    rw [dmaPutAll, ih]
    · rw [dmaPut_byte]
      refine ramWrite_ne (a := s.wd.dmaAddr) (b := b) fun hk e => h ⟨hk, 0, by simp, by simpa using e⟩
    · rintro ⟨hk, j, hj, e⟩
      rw [dmaPut_eq] at hk e
      refine h ⟨hk, j + 1, by simpa using hj, ?_⟩
      rw [← addr_succ]
      exact e

/-- Each byte of the list lies in RAM where its address does, while the window does not wrap onto itself. -/
theorem dmaPutAll_byte {bs : List Byte} {s : State} (hm : MemOk s) (hn : bs.length ≤ 2 ^ 24) {j : Nat}
    (hj : j < bs.length) (ha : (s.wd.dmaAddr + BitVec.ofNat 24 j).toNat < ramBytes s.params) :
    storedByte (dmaPutAll bs s) (s.wd.dmaAddr + BitVec.ofNat 24 j).toNat = bs[j] := by
  induction bs generalizing s j with
  | nil => simp at hj
  | cons b t ih =>
    rw [dmaPutAll]
    have hm' : MemOk (dmaPut b s) := by
      rw [dmaPut_eq]
      exact ramWrite_ok (a := s.wd.dmaAddr) (b := b) hm
    cases j with
    | zero =>
      rw [dmaPutAll_ne]
      · rw [dmaPut_byte]
        have e : s.wd.dmaAddr + BitVec.ofNat 24 0 = s.wd.dmaAddr := by simp
        rw [e] at ha ⊢
        exact ramWrite_same hm ha
      · rintro ⟨-, i, hi, e⟩
        rw [dmaPut_eq] at e
        have e' : s.wd.dmaAddr + BitVec.ofNat 24 0 = s.wd.dmaAddr + 1 + BitVec.ofNat 24 i := BitVec.eq_of_toNat_eq e
        rw [addr_succ] at e'
        have e2 : BitVec.ofNat 24 0 = BitVec.ofNat 24 (i + 1) := by
          have := congrArg (fun x => x - s.wd.dmaAddr) e'
          simpa [BitVec.add_comm s.wd.dmaAddr, BitVec.add_sub_cancel] using this
        have e3 := congrArg BitVec.toNat e2
        simp only [BitVec.toNat_ofNat, List.length_cons] at e3 hn
        omega
    | succ i =>
      have hd : (dmaPut b s).wd.dmaAddr + BitVec.ofNat 24 i = s.wd.dmaAddr + BitVec.ofNat 24 (i + 1) := by
        rw [dmaPut_eq]
        exact addr_succ _ _
      have hp : (dmaPut b s).params = s.params := by rw [dmaPut_eq]
      have := ih (s := dmaPut b s) hm' (by simp at hn; omega) (j := i) (by simpa using hj) (by rw [hd, hp]; exact ha)
      rw [hd] at this
      rw [this]
      rfl

/-- `dma_get` n times: the address advances by n, and nothing else changes. -/
theorem dmaGetAll_frame (n : Nat) (s : State) : (dmaGetAll n s).2 = { s with
    wd := { s.wd with dmaAddr := s.wd.dmaAddr + BitVec.ofNat 24 n } } := by
  induction n generalizing s with
  | zero => simp [dmaGetAll]
  | succ n ih =>
    simp only [dmaGetAll]
    rw [ih]
    simp only [addr_succ]

theorem dmaGetAll_length (n : Nat) (s : State) : (dmaGetAll n s).1.length = n := by
  induction n generalizing s with
  | zero => rfl
  | succ n ih => simp [dmaGetAll, ih]

/-- The bytes `dma_get` returns are those of RAM from the address on. -/
theorem dmaGetAll_byte (n : Nat) (s : State) {j : Nat} (hj : j < n) :
    (dmaGetAll n s).1.getD j 0 = ramRead s (s.wd.dmaAddr + BitVec.ofNat 24 j) := by
  induction n generalizing s j with
  | zero => omega
  | succ n ih =>
    simp only [dmaGetAll]
    cases j with
    | zero => simp
    | succ i =>
      rw [List.getD_cons_succ, ih _ (by omega)]
      rw [← addr_succ]
      rfl

theorem patchPayload_length (d : Floppy) (off : Nat) (bs : List Byte) (h : off + bs.length ≤ d.payload.length) :
    (patchPayload d off bs).payload.length = d.payload.length := by
  unfold patchPayload
  simp
  omega

/-- A patched image holds the new bytes in the patch and the old ones outside it. -/
theorem patchPayload_byte (d : Floppy) (off : Nat) (bs : List Byte) (h : off + bs.length ≤ d.payload.length) (k : Nat) :
    (patchPayload d off bs).payload.getD k 0
      = if off ≤ k ∧ k < off + bs.length then bs.getD (k - off) 0 else d.payload.getD k 0 := by
  unfold patchPayload
  simp only [List.getD_eq_getElem?_getD]
  by_cases h1 : k < off
  · rw [if_neg (by omega), List.append_assoc, List.getElem?_append_left (by simp; omega), List.getElem?_take_of_lt h1]
  · by_cases h2 : k < off + bs.length
    · rw [if_pos (by omega), List.append_assoc, List.getElem?_append_right (by simp; omega),
        List.getElem?_append_left (by simp; omega)]
      congr 2
      simp
      omega
    · rw [if_neg (by omega), List.getElem?_append_right (by simp; omega), List.getElem?_drop]
      congr 2
      simp
      omega

end Sys2Proof
end

