-- ==== Sys2Proof/Laws/Induction.lean ====
section
/-! SUPPORT. Laws/Induction.lean: the induction over what a step does, once. A property that the few primitive changes
of the block keep is kept by every operation of the table, by every boundary of the core, and by every step. -/

namespace Sys2Proof.Machine

/-! The WD1772's commands. -/

section Command

variable {P : State → Prop}
  (wd : ∀ {s : State} (w : Wd), P s → P { s with wd := w })
  (gpip : ∀ {s : State} (l : GpipLine) (b : Bool), P s → P (setGpip l b s))
  (disk : ∀ {s : State} (d : Option Floppy), P s → P { s with disk := d })
  (draws : ∀ {s : State} (n : Nat), P s → P { s with draws := n })
  (store : ∀ {s : State} (k : Nat) (v : Byte), k < ramBytes s.params → P s → P (storeByte k v s))
  (havoc : ∀ {s : State}, P s → P (havocRam s))

include wd store in
theorem dmaPutAll_closed (bs : List Byte) {s : State} (hs : P s) : P (dmaPutAll bs s) := by
  induction bs generalizing s with
  | nil => exact hs
  | cons b t ih =>
    refine ih (wd (s := ramWrite s.wd.dmaAddr b s) _ ?_)
    unfold ramWrite
    split
    · next h => exact store _ _ h hs
    · exact hs

include wd in
theorem dmaGetAll_closed (n : Nat) {s : State} (hs : P s) : P (dmaGetAll n s).2 := by
  induction n generalizing s with
  | zero => exact hs
  | succ n ih => exact ih (wd _ hs)

include wd gpip in
theorem finishWith_closed (b : Byte) {s : State} (hs : P s) : P (finishWith b s) :=
  gpip _ _ (wd (s := { s with wd := { s.wd with status := b } }) _ (wd _ hs))

include wd gpip in
theorem wdFail_closed (b : Byte) {s : State} (hs : P s) : P (wdFail b s) :=
  gpip _ _ (wd (s := { s with wd := { s.wd with status := b, dmaError := true, multi := false } }) _ (wd _ hs))

include wd store in
theorem readOne_closed {d : Floppy} {s t : State} (h : readOne d s = some t) (hs : P s) : P t := by
  unfold readOne at h
  split at h
  · cases h
  · cases h; exact dmaPutAll_closed wd store _ hs

include wd disk in
theorem writeOne_closed {d : Floppy} {s t : State} (h : writeOne d s = some t) (hs : P s) : P t := by
  unfold writeOne at h
  split at h
  · cases h
  · cases h; exact disk _ (dmaGetAll_closed wd _ hs)

include wd store in
theorem readMany_closed (d : Floppy) (n : Nat) {s : State} (hs : P s) : P (readMany d n s).2 := by
  induction n generalizing s with
  | zero => exact hs
  | succ n ih =>
    unfold readMany
    split
    · exact hs
    · next u h =>
      have hu := readOne_closed wd store h hs
      exact ih (wd (s := u) _ hu)

include wd disk in
theorem writeMany_closed (n : Nat) {s : State} (hs : P s) : P (writeMany n s).2 := by
  induction n generalizing s with
  | zero => exact hs
  | succ n ih =>
    unfold writeMany
    split
    · exact hs
    · split
      · exact hs
      · next u h =>
        have hu := writeOne_closed wd disk h hs
        exact ih (wd (s := u) _ hu)

include wd gpip in
theorem finishMany_closed {r : Bool × State} (hs : P r.2) : P (finishMany r) := by
  unfold finishMany
  split
  · exact finishWith_closed wd gpip _ hs
  · exact wdFail_closed wd gpip _ hs

include draws in
theorem drawBytes_closed (n : Nat) {s : State} (hs : P s) : P (drawBytes n s).2 := by
  induction n generalizing s with
  | zero => exact hs
  | succ n ih => exact ih (s := nextDraw s) (draws _ hs)

include wd gpip disk draws store havoc in
/-- A property kept by any change of the WD1772's registers, of its line, of the disk and of RAM is kept by every
command. -/
theorem commandWrite_closed {c : Byte} {s t : State} (h : commandWrite c s = .next t) (hs : P s) : P t := by
  have fin : ∀ (b : Byte) {u : State}, P u → P (finishWith b u) := fun b _ hu => finishWith_closed wd gpip b hu
  have bad : ∀ (b : Byte) {u : State}, P u → P (wdFail b u) := fun b _ hu => wdFail_closed wd gpip b hu
  have hregs : ∀ {u : State}, P u → P (havocRegs (wdComplete u)) := by
    intro u hu
    have hc : P (wdComplete u) := gpip _ _ (wd (s := u) _ hu)
    have hw := wd (havocRegs (wdComplete u)).wd hc
    exact draws ((wdComplete u).draws + 4) hw
  unfold commandWrite at h
  have h1 : P (wdBegin c s) := wd (s := setGpip .fdc true { s with wd := { s.wd with command := c } }) _
    (gpip _ _ (wd _ hs))
  generalize wdBegin c s = u at h h1
  have t1 : ∀ w : Wd, P (finishType1 { u with wd := w }) := fun w => fin _ (wd _ h1)
  have m1 : ∀ b : Bool, P (setMulti b u) := fun b => wd _ h1
  dsimp only at h
  split at h
  · cases h; exact t1 _
  · cases h; exact t1 _
  · cases h; exact t1 _
  · cases h; exact t1 _
  · cases h; exact t1 _
  · cases h; exact t1 _
  · cases h; exact t1 _
  · cases h; exact t1 _
  · cases h
    unfold cmdReadSector
    dsimp only
    split
    · exact bad _ (m1 _)
    · split
      · exact bad _ (m1 _)
      · next v hv =>
        have := readOne_closed wd store hv (m1 _)
        exact fin _ (wd (s := v) _ this)
  · cases h
    unfold cmdReadMulti
    dsimp only
    split
    · exact bad _ (m1 _)
    · exact finishMany_closed wd gpip (readMany_closed wd store _ _ (m1 _))
  · cases h
    unfold cmdWriteSector
    dsimp only
    split
    · exact bad _ (m1 _)
    · split
      · exact bad _ (m1 _)
      · split
        · exact bad _ (m1 _)
        · next v hv =>
          have := writeOne_closed wd disk hv (m1 _)
          exact fin _ (wd (s := v) _ this)
  · cases h
    unfold cmdWriteMulti
    dsimp only
    split
    · exact bad _ (m1 _)
    · split
      · exact bad _ (m1 _)
      · exact finishMany_closed wd gpip (writeMany_closed wd disk _ (m1 _))
  · cases h
    unfold cmdReadAddress
    split
    · exact bad _ h1
    · exact fin _ (dmaPutAll_closed wd store _ h1)
  · cases h; exact gpip _ _ (wd _ h1)
  · unfold cmdReadTrack at h
    split at h
    · cases h
    · cases h; exact havoc (hregs h1)
  · unfold cmdWriteTrack at h
    split at h
    · cases h
    · cases h
      unfold havocTrack
      split
      · exact hregs h1
      · exact disk _ (drawBytes_closed draws _ (hregs h1))

end Command

/-- The property is kept by every primitive change that an operation of the table or a boundary of the core makes. The
core's own registers, the bus value and the draws may change in any way. -/
structure CoreClosed (P : State → Prop) : Prop where
  cpu : ∀ {s : State} (c : Cpu), c.ipl = s.cpu.ipl → P s → P { s with cpu := c }
  bus : ∀ {s : State} (v : Word), P s → P (answer v s)
  draws : ∀ {s : State} (n : Nat), P s → P { s with draws := n }
  store : ∀ {s : State} (k : Nat) (v : Byte),
    k < ramBytes s.params ∨ ioBase ≤ k → P s → P (storeByte k v s)
  gpip : ∀ {s : State} (l : GpipLine) (b : Bool), P s → P (setGpip l b s)
  updateIrq : ∀ {s : State}, P s → P (updateIrq s)
  mfpWrite : ∀ {s : State} (r : MfpReg) (v : Byte), P s → P (mfpWrite r v s)
  mfpIack : ∀ {s : State}, P s → P (mfpIack s).2
  clearHbl : ∀ {s : State}, P s → P (clearHbl s)
  clearVbl : ∀ {s : State}, P s → P (clearVbl s)
  ymSelect : ∀ {s : State} (v : Byte), P s → P (ymSelect v s)
  ymWriteData : ∀ {s : State} (v : Byte), P s → P (ymWriteData v s)
  aciaControl : ∀ {s : State} (v : Byte), P s → P (aciaControlWrite v s)
  aciaDataRead : ∀ {s : State}, P s → P (aciaDataRead s).2
  queue : ∀ {s : State} (q : List Byte), P s → P { s with acia := { s.acia with queue := q } }
  ikbd : ∀ {s : State} (k : Ikbd), P s → P { s with ikbd := k }
  disk : ∀ {s : State} (d : Option Floppy), P s → P { s with disk := d }
  wd : ∀ {s : State} (w : Wd), w.status = s.wd.status → w.multi = s.wd.multi → P s → P { s with wd := w }
  commandWrite : ∀ {s t : State} {c : Byte}, commandWrite c s = .next t → P s → P t

/-- The property is kept by every primitive change the block makes: the core's, the frame loop's, the host's. -/
structure Closed (P : State → Prop) : Prop extends CoreClosed P where
  ops : ∀ {s : State} (l : List Byte), P s → P { s with ops := l }
  host : ∀ {s : State} (h : HostSide), P s → P { s with host := h }
  loop : ∀ {s : State} (l : Loop),
    l.scanline = s.loop.scanline ∨ l.scanline < Config.linesPerFrame → P s → P { s with loop := l }
  updateTimers : ∀ {s : State} (n : Nat), P s → P (updateTimers n s)
  tickEvent : ∀ {s : State} (t : Timer), P s → P (tickEvent t s)
  raiseHbl : ∀ {s : State}, P s → P (raiseHbl s)
  raiseVbl : ∀ {s : State}, P s → P (raiseVbl s)
  ymSync : ∀ {s : State} (n : Nat), P s → P (ymSync n s)
  audioPull : ∀ {s : State} (n : Nat), P s → P (audioPull n s)
  aciaSync : ∀ {s : State} (n : Nat), P s → P (aciaSync n s)
  row : ∀ {s : State} (n : Nat) (ws : List Word), ws.length = 640 → P s → P (setRow n ws s)
  counter : ∀ {s : State} (a : Addr), P s → P (setVideoCounter a s)
  frameComplete : ∀ {s : State}, P s → P (raiseFrameComplete s)
  warmReset : ∀ {s : State}, P s → P (warmReset s)

namespace CoreClosed

variable {P : State → Prop} (hP : CoreClosed P) {s t : State}
include hP

theorem answer8 {v : Byte} (hs : P s) : P (answer8 v s) := hP.bus _ hs

theorem setCore (r : CoreRegs) (hs : P s) : P (setCore r s) := hP.cpu _ rfl hs

theorem markBerr (b : Bool) (hs : P s) : P (markBerr b s) := hP.cpu _ rfl hs

theorem setStopped (b : Bool) (hs : P s) : P (setStopped b s) := hP.cpu _ rfl hs

theorem setMouse (b : Bool) (hs : P s) : P (setMouse b s) := hP.ikbd _ hs

theorem setJoy (b : Bool) (hs : P s) : P (setJoy b s) := hP.ikbd _ hs

theorem clearCmd (hs : P s) : P (clearCmd s) := hP.ikbd _ hs

theorem pushQueue (bs : List Byte) (hs : P s) : P (pushQueue bs s) := hP.queue _ hs

theorem dmaMode (m : Half) (hs : P s) : P (dmaModeWrite m s) := hP.wd _ rfl rfl hs

theorem dmaAddr (a : Addr) (hs : P s) : P (dmaAddrWrite a s) := hP.wd _ rfl rfl hs

theorem ikbdResetCmd (b : Byte) (hs : P s) : P (ikbdResetCmd b s) := by
  unfold Machine.ikbdResetCmd
  split
  · exact hP.pushQueue _ (hP.setJoy _ (hP.setMouse _ (hP.queue [] hs)))
  · exact hs

theorem ikbdExecute (c : List Byte) (hs : P s) : P (ikbdExecute c s) := by
  unfold Machine.ikbdExecute
  split
  · exact hs
  · repeat' split
    · exact hP.setMouse _ hs
    · exact hP.setMouse _ hs
    · exact hP.pushQueue _ (hP.setJoy _ hs)
    · exact hP.setJoy _ hs
    · exact hP.pushQueue _ hs
    · exact hP.pushQueue _ hs
    · exact hP.ikbdResetCmd _ hs
    · exact hs

theorem ikbdReceive (b : Byte) (hs : P s) : P (ikbdReceive b s) := by
  unfold Machine.ikbdReceive
  dsimp only
  split
  · exact hP.clearCmd hs
  · split
    · exact hP.clearCmd (hP.ikbdExecute _ hs)
    · exact hP.ikbd _ hs

theorem irqAck (l : BitVec 3) (hs : P s) : P (irqAck l s).2 := by
  unfold Machine.irqAck
  repeat' split
  · exact hP.clearHbl hs
  · exact hP.clearVbl hs
  · exact hP.updateIrq (hP.mfpIack hs)
  · exact hs

theorem fdcRead (hs : P s) : P (fdcRead s).2 := by
  unfold Machine.fdcRead
  repeat' split
  all_goals first | exact hP.gpip _ _ hs | exact hs

theorem fdcWrite {v : Byte} (h : fdcWrite v s = .next t) (hs : P s) : P t := by
  unfold Machine.fdcWrite at h
  split at h
  · cases h; exact hP.wd _ rfl rfl hs
  · split at h
    · cases h; exact hs
    · split at h
      · exact hP.commandWrite h hs
      all_goals cases h; exact hP.wd _ rfl rfl hs

theorem deviceRead8 (r : IoReg) (hs : P s) : P (deviceRead8 r s).2 := by
  cases r <;> first | exact hs | exact hP.fdcRead hs | exact hP.aciaDataRead hs

theorem deviceWrite8 {r : IoReg} {v : Byte} (h : deviceWrite8 r v s = .next t) (hs : P s) : P t := by
  cases r <;> simp only [Machine.deviceWrite8, Host.Outcome.next.injEq] at h
  case fdcDataLo => exact hP.fdcWrite h hs
  all_goals subst h
  case fdcDataHi => exact hs
  case ymSelect => exact hP.ymSelect v hs
  case ymData => exact hP.ymWriteData v hs
  case mfp r => exact hP.mfpWrite r v hs
  case aciaControl => exact hP.aciaControl v hs
  case aciaData => exact hP.ikbdReceive v hs
  all_goals exact hP.wd _ rfl rfl hs

theorem read8 (a : Addr) (hs : P s) : P (read8 a s).2 := by
  unfold Machine.read8
  split
  · split
    · exact hP.deviceRead8 _ hs
    · exact hs
  all_goals exact hs

theorem read16 (a : Addr) (hs : P s) : P (read16 a s).2 := by
  unfold Machine.read16
  split
  · exact hP.fdcRead hs
  · split
    · exact hs
    · exact hP.read8 _ (hP.read8 _ hs)

theorem readRaw (w : Width) (a : Addr) (hs : P s) : P (readRaw w a s).2 := by
  cases w
  · exact hP.read8 a hs
  · exact hP.read16 a hs
  · exact hP.read16 _ (hP.read16 _ hs)

theorem write8 {a : Addr} {v : Byte} (h : write8 a v s = .next t) (hs : P s) : P t := by
  unfold Machine.write8 at h
  have io : ∀ x : Addr, region s.params x = .io → ioBase ≤ x.toNat := by
    intro x hx
    unfold region at hx
    repeat' split at hx
    all_goals first | assumption | cases hx
  have ram : ∀ (x : Addr) (i : Nat), region s.params x = .ram i → i < ramBytes s.params := by
    intro x i hx
    unfold region at hx
    repeat' split at hx
    all_goals first | cases hx; assumption | cases hx
  split at h
  · cases h; exact hs
  · next hr => cases h; exact hP.store _ _ (.inl (ram _ _ hr)) hs
  · next hr =>
    split at h
    · exact hP.deviceWrite8 h hs
    · cases h; exact hP.store _ _ (.inr (io _ hr)) hs
  · cases h; exact hs

theorem write16 {a : Addr} {v : Half} (h : write16 a v s = .next t) (hs : P s) : P t := by
  unfold Machine.write16 at h
  split at h
  · exact hP.fdcWrite h hs
  · split at h
    · cases h; exact hP.dmaMode _ hs
    · obtain ⟨u, h1, h2⟩ := andThen_next h
      exact hP.write8 h2 (hP.write8 h1 hs)

theorem writeRaw {w : Width} {a : Addr} {v : Word} (h : writeRaw w a v s = .next t) (hs : P s) : P t := by
  cases w
  · exact hP.write8 h hs
  · exact hP.write16 h hs
  · obtain ⟨u, h1, h2⟩ := andThen_next h
    exact hP.write16 h2 (hP.write16 h1 hs)

theorem frameWrite {w : Width} {a v : Word} (h : frameWrite w a v s = .next t) (hs : P s) : P t := by
  unfold Machine.frameWrite at h
  split at h
  · split at h
    · cases h; exact hs
    · cases h
  · exact hP.writeRaw h hs

theorem setAhead (l : List (Addr × Half)) (hs : P s) : P (setAhead l s) := hP.cpu _ rfl hs

theorem enterSupervisor (hs : P s) : P (enterSupervisor s) := hP.setCore _ (hP.setAhead _ hs)

theorem pushGroup0 {a : Addr} {rd prog : Bool} {sr0 : Half} (h : pushGroup0 a rd prog sr0 s = .next t)
    (hs : P s) : P t := by
  unfold Machine.pushGroup0 at h
  dsimp only at h
  split at h
  · cases h
  · obtain ⟨u1, h1, h⟩ := andThen_next h
    obtain ⟨u2, h2, h⟩ := andThen_next h
    obtain ⟨u3, h3, h⟩ := andThen_next h
    obtain ⟨u4, h4, h⟩ := andThen_next h
    have h0 := hP.frameWrite h1 (hP.setCore _ (hP.draws _ hs))
    exact hP.frameWrite h (hP.frameWrite h4 (hP.frameWrite h3 (hP.frameWrite h2 h0)))

theorem takeGroup0 {a : Addr} {rd prog : Bool} {f : State → Word} (h : takeGroup0 a rd prog f s = .next t)
    (hs : P s) : P t := by
  unfold Machine.takeGroup0 at h
  obtain ⟨u, h1, h2⟩ := andThen_next h
  cases h2
  exact hP.markBerr _ (hP.setCore _ (hP.pushGroup0 h1 (hP.enterSupervisor hs)))

theorem memRead {w : Width} {a : Addr} {prog : Bool} (h : memRead w a prog s = .next t) (hs : P s) : P t := by
  unfold Machine.memRead Machine.busErrorRead at h
  split at h
  · split at h
    · cases h; exact hP.bus _ (hP.draws _ hs)
    · exact hP.takeGroup0 h hs
  · cases h; exact hP.bus _ (hP.readRaw w a hs)

theorem memWrite {w : Width} {a : Addr} {v : Word} (h : memWrite w a v s = .next t) (hs : P s) : P t := by
  unfold Machine.memWrite Machine.busErrorWrite at h
  split at h
  · split at h
    · cases h; exact hs
    · exact hP.takeGroup0 h hs
  · exact hP.writeRaw h hs

theorem busAccess {a : Addr} {acc : Access} (h : busAccess a acc s = .next t) (hs : P s) : P t := by
  cases acc with
  | rd8 => exact hP.memRead (w := .byte) (prog := false) h hs
  | rd16 => exact hP.memRead (w := .word) (prog := false) h hs
  | rd32 => exact hP.memRead (w := .long) (prog := false) h hs
  | wr8 v => exact hP.memWrite (w := .byte) (v := v.setWidth 32) h hs
  | wr16 v => exact hP.memWrite (w := .word) (v := v.setWidth 32) h hs
  | wr32 v => exact hP.memWrite (w := .long) (v := v) h hs

/-- Every operation of the table keeps the property. -/
theorem exec {i : Instr} (h : exec i s = .next t) (hs : P s) : P t := by
  cases i with
  | fdcDmaDataRd16 => cases h; exact hP.answer8 (hP.fdcRead hs)
  | fdcDmaDataWr16 v => exact hP.fdcWrite h hs
  | fdcDmaDataHiRd8 => cases h; exact hP.bus _ hs
  | fdcDmaDataHiWr8 v => cases h; exact hs
  | fdcDmaDataLoRd8 => cases h; exact hP.answer8 (hP.fdcRead hs)
  | fdcDmaDataLoWr8 v => exact hP.fdcWrite h hs
  | dmaStatusRd16 => cases h; exact hP.bus _ hs
  | dmaModeWr16 v => cases h; exact hP.dmaMode _ hs
  | dmaStatusHiRd8 => cases h; exact hP.bus _ hs
  | dmaModeHiWr8 v => cases h; exact hP.dmaMode _ hs
  | dmaStatusLoRd8 => cases h; exact hP.bus _ hs
  | dmaModeLoWr8 v => cases h; exact hP.dmaMode _ hs
  | dmaAddrHiRd8 => cases h; exact hP.bus _ hs
  | dmaAddrHiWr8 v => cases h; exact hP.dmaAddr _ hs
  | dmaAddrMidRd8 => cases h; exact hP.bus _ hs
  | dmaAddrMidWr8 v => cases h; exact hP.dmaAddr _ hs
  | dmaAddrLoRd8 => cases h; exact hP.bus _ hs
  | dmaAddrLoWr8 v => cases h; exact hP.dmaAddr _ hs
  | ymSelectWr8 v => cases h; exact hP.ymSelect _ hs
  | ymDataRd8 => cases h; exact hP.bus _ hs
  | ymDataWr8 v => cases h; exact hP.ymWriteData _ hs
  | ymFf8802Rd8 => cases h; exact hP.bus _ hs
  | mfpGpipRd8 => cases h; exact hP.bus _ hs
  | mfpGpipWr8 v => cases h; exact hP.mfpWrite _ _ hs
  | mfpAerRd8 => cases h; exact hP.bus _ hs
  | mfpAerWr8 v => cases h; exact hP.mfpWrite _ _ hs
  | mfpDdrRd8 => cases h; exact hP.bus _ hs
  | mfpDdrWr8 v => cases h; exact hP.mfpWrite _ _ hs
  | mfpIeraRd8 => cases h; exact hP.bus _ hs
  | mfpIeraWr8 v => cases h; exact hP.mfpWrite _ _ hs
  | mfpIerbRd8 => cases h; exact hP.bus _ hs
  | mfpIerbWr8 v => cases h; exact hP.mfpWrite _ _ hs
  | mfpIpraRd8 => cases h; exact hP.bus _ hs
  | mfpIpraWr8 v => cases h; exact hP.mfpWrite _ _ hs
  | mfpIprbRd8 => cases h; exact hP.bus _ hs
  | mfpIprbWr8 v => cases h; exact hP.mfpWrite _ _ hs
  | mfpIsraRd8 => cases h; exact hP.bus _ hs
  | mfpIsraWr8 v => cases h; exact hP.mfpWrite _ _ hs
  | mfpIsrbRd8 => cases h; exact hP.bus _ hs
  | mfpIsrbWr8 v => cases h; exact hP.mfpWrite _ _ hs
  | mfpImraRd8 => cases h; exact hP.bus _ hs
  | mfpImraWr8 v => cases h; exact hP.mfpWrite _ _ hs
  | mfpImrbRd8 => cases h; exact hP.bus _ hs
  | mfpImrbWr8 v => cases h; exact hP.mfpWrite _ _ hs
  | mfpVrRd8 => cases h; exact hP.bus _ hs
  | mfpVrWr8 v => cases h; exact hP.mfpWrite _ _ hs
  | mfpTacrRd8 => cases h; exact hP.bus _ hs
  | mfpTacrWr8 v => cases h; exact hP.mfpWrite _ _ hs
  | mfpTbcrRd8 => cases h; exact hP.bus _ hs
  | mfpTbcrWr8 v => cases h; exact hP.mfpWrite _ _ hs
  | mfpTcdcrRd8 => cases h; exact hP.bus _ hs
  | mfpTcdcrWr8 v => cases h; exact hP.mfpWrite _ _ hs
  | mfpTadrRd8 => cases h; exact hP.bus _ hs
  | mfpTadrWr8 v => cases h; exact hP.mfpWrite _ _ hs
  | mfpTbdrRd8 => cases h; exact hP.bus _ hs
  | mfpTbdrWr8 v => cases h; exact hP.mfpWrite _ _ hs
  | mfpTcdrRd8 => cases h; exact hP.bus _ hs
  | mfpTcdrWr8 v => cases h; exact hP.mfpWrite _ _ hs
  | mfpTddrRd8 => cases h; exact hP.bus _ hs
  | mfpTddrWr8 v => cases h; exact hP.mfpWrite _ _ hs
  | aciaStatusRd8 => cases h; exact hP.bus _ hs
  | aciaControlWr8 v => cases h; exact hP.aciaControl _ hs
  | aciaDataRd8 => cases h; exact hP.answer8 (hP.aciaDataRead hs)
  | aciaDataWr8 v => cases h; exact hP.ikbdReceive _ hs
  | mmuConfig acc => exact hP.busAccess h hs
  | videoBaseHi acc => exact hP.busAccess h hs
  | videoBaseMid acc => exact hP.busAccess h hs
  | videoCounterHi acc => exact hP.busAccess h hs
  | videoCounterMid acc => exact hP.busAccess h hs
  | videoCounterLo acc => exact hP.busAccess h hs
  | syncMode acc => exact hP.busAccess h hs
  | palette off acc => exact hP.busAccess h hs
  | resolution acc => exact hP.busAccess h hs
  | unclaimedIo a acc => exact hP.busAccess h hs
  | berrSteDmaSound a acc => exact hP.busAccess h hs
  | berrBlitter a acc => exact hP.busAccess h hs
  | berrSteJoystick a acc => exact hP.busAccess h hs
  | fdcRestore fl => exact hP.commandWrite ((Machine.fdcRestore_eq fl s).symm.trans h) hs
  | fdcSeek fl => exact hP.commandWrite ((Machine.fdcSeek_eq fl s).symm.trans h) hs
  | fdcStep fl => exact hP.commandWrite ((Machine.fdcStep_eq fl s).symm.trans h) hs
  | fdcStepU fl => exact hP.commandWrite ((Machine.fdcStepU_eq fl s).symm.trans h) hs
  | fdcStepIn fl => exact hP.commandWrite ((Machine.fdcStepIn_eq fl s).symm.trans h) hs
  | fdcStepInU fl => exact hP.commandWrite ((Machine.fdcStepInU_eq fl s).symm.trans h) hs
  | fdcStepOut fl => exact hP.commandWrite ((Machine.fdcStepOut_eq fl s).symm.trans h) hs
  | fdcStepOutU fl => exact hP.commandWrite ((Machine.fdcStepOutU_eq fl s).symm.trans h) hs
  | fdcReadSector fl => exact hP.commandWrite ((Machine.fdcReadSector_eq fl s).symm.trans h) hs
  | fdcReadSectorMulti fl => exact hP.commandWrite ((Machine.fdcReadSectorMulti_eq fl s).symm.trans h) hs
  | fdcWriteSector fl => exact hP.commandWrite ((Machine.fdcWriteSector_eq fl s).symm.trans h) hs
  | fdcWriteSectorMulti fl => exact hP.commandWrite ((Machine.fdcWriteSectorMulti_eq fl s).symm.trans h) hs
  | fdcReadAddress fl => exact hP.commandWrite ((Machine.fdcReadAddress_eq fl s).symm.trans h) hs
  | fdcForceInterrupt fl => exact hP.commandWrite ((Machine.fdcForceInterrupt_eq fl s).symm.trans h) hs
  | fdcReadTrack fl => exact hP.commandWrite ((Machine.fdcReadTrack_eq fl s).symm.trans h) hs
  | fdcWriteTrack fl => exact hP.commandWrite ((Machine.fdcWriteTrack_eq fl s).symm.trans h) hs
  | setMouseButtonAction p1 => cases h; exact hP.clearCmd hs
  | setRelativeMouse => cases h; exact hP.clearCmd (hP.setMouse _ hs)
  | setAbsoluteMouse p1 p2 p3 p4 => cases h; exact hP.clearCmd (hP.setMouse _ hs)
  | setMouseKeycodeMode p1 p2 => cases h; exact hP.clearCmd (hP.setMouse _ hs)
  | setMouseThreshold p1 p2 => cases h; exact hP.clearCmd hs
  | setMouseScale p1 p2 => cases h; exact hP.clearCmd hs
  | interrogateMousePosition => cases h; exact hP.clearCmd hs
  | loadMousePosition p1 p2 p3 p4 p5 => cases h; exact hP.clearCmd hs
  | setYAtBottom => cases h; exact hP.clearCmd hs
  | setYAtTop => cases h; exact hP.clearCmd hs
  | resume => cases h; exact hP.clearCmd hs
  | disableMouse => cases h; exact hP.clearCmd (hP.setMouse _ hs)
  | pauseOutput => cases h; exact hP.clearCmd hs
  | setJoystickEventReporting => cases h; exact hP.clearCmd (hP.pushQueue _ (hP.setJoy _ hs))
  | setJoystickInterrogationMode => cases h; exact hP.clearCmd (hP.setJoy _ hs)
  | joystickInterrogate => cases h; exact hP.clearCmd (hP.pushQueue _ hs)
  | setJoystickMonitoring p1 => cases h; exact hP.clearCmd hs
  | setFireButtonMonitoring => cases h; exact hP.clearCmd hs
  | setJoystickKeycodeMode p1 p2 p3 p4 p5 p6 => cases h; exact hP.clearCmd hs
  | disableJoysticks => cases h; exact hP.clearCmd (hP.setJoy _ hs)
  | timeOfDayClockSet p1 p2 p3 p4 p5 p6 => cases h; exact hP.clearCmd hs
  | interrogateTimeOfDayClock => cases h; exact hP.clearCmd (hP.pushQueue _ hs)
  | memoryLoad p1 p2 p3 => cases h; exact hP.clearCmd hs
  | memoryRead p1 p2 => cases h; exact hP.clearCmd hs
  | controllerExecute p1 p2 => cases h; exact hP.clearCmd hs
  | ikbdReset p1 => cases h; exact hP.clearCmd (hP.ikbdResetCmd _ hs)
  | statusInquiry87 => cases h; exact hP.clearCmd hs
  | statusInquiry88 => cases h; exact hP.clearCmd hs
  | statusInquiry89 => cases h; exact hP.clearCmd hs
  | statusInquiry8A => cases h; exact hP.clearCmd hs
  | statusInquiry8B => cases h; exact hP.clearCmd hs
  | statusInquiry8C => cases h; exact hP.clearCmd hs
  | statusInquiry8F => cases h; exact hP.clearCmd hs
  | statusInquiry90 => cases h; exact hP.clearCmd hs
  | statusInquiry92 => cases h; exact hP.clearCmd hs
  | statusInquiry94 => cases h; exact hP.clearCmd hs
  | statusInquiry95 => cases h; exact hP.clearCmd hs
  | statusInquiry99 => cases h; exact hP.clearCmd hs
  | statusInquiry9A => cases h; exact hP.clearCmd hs
  | unknownFirstByte b => cases h; exact hP.clearCmd hs
  | ymToneAFine v => cases h; exact hP.ymWriteData _ (hP.ymSelect _ hs)
  | ymToneACoarse v => cases h; exact hP.ymWriteData _ (hP.ymSelect _ hs)
  | ymToneBFine v => cases h; exact hP.ymWriteData _ (hP.ymSelect _ hs)
  | ymToneBCoarse v => cases h; exact hP.ymWriteData _ (hP.ymSelect _ hs)
  | ymToneCFine v => cases h; exact hP.ymWriteData _ (hP.ymSelect _ hs)
  | ymToneCCoarse v => cases h; exact hP.ymWriteData _ (hP.ymSelect _ hs)
  | ymNoisePeriod v => cases h; exact hP.ymWriteData _ (hP.ymSelect _ hs)
  | ymMixerEnable v => cases h; exact hP.ymWriteData _ (hP.ymSelect _ hs)
  | ymLevelA v => cases h; exact hP.ymWriteData _ (hP.ymSelect _ hs)
  | ymLevelB v => cases h; exact hP.ymWriteData _ (hP.ymSelect _ hs)
  | ymLevelC v => cases h; exact hP.ymWriteData _ (hP.ymSelect _ hs)
  | ymEnvPeriodFine v => cases h; exact hP.ymWriteData _ (hP.ymSelect _ hs)
  | ymEnvPeriodCoarse v => cases h; exact hP.ymWriteData _ (hP.ymSelect _ hs)
  | ymEnvShape v => cases h; exact hP.ymWriteData _ (hP.ymSelect _ hs)
  | ymPortA v => cases h; exact hP.ymWriteData _ (hP.ymSelect _ hs)
  | ymPortB v => cases h; exact hP.ymWriteData _ (hP.ymSelect _ hs)
  | iackL1 => cases h; exact hP.answer8 (hP.irqAck _ hs)
  | iackL2 => cases h; exact hP.answer8 (hP.irqAck _ hs)
  | iackL3 => cases h; exact hP.answer8 (hP.irqAck _ hs)
  | iackL4 => cases h; exact hP.answer8 (hP.irqAck _ hs)
  | iackL5 => cases h; exact hP.answer8 (hP.irqAck _ hs)
  | iackL6 => cases h; exact hP.answer8 (hP.irqAck _ hs)
  | iackL7 => cases h; exact hP.answer8 (hP.irqAck _ hs)


/-! The core. -/

theorem cpuRead {w : Width} {a : Word} {prog : Bool} (h : cpuRead w a prog s = .next t) (hs : P s) : P t := by
  unfold Machine.cpuRead at h
  split at h
  · exact hP.takeGroup0 h hs
  · exact hP.memRead h hs

theorem cpuWrite {w : Width} {a v : Word} (h : cpuWrite w a v s = .next t) (hs : P s) : P t := by
  unfold Machine.cpuWrite at h
  split at h
  · exact hP.takeGroup0 h hs
  · exact hP.memWrite h hs

omit hP in
theorem unwound {o : Host.Outcome State Fault Refusal} {f : State → Host.Outcome State Fault Refusal}
    (h : unlessUnwound o f = .next t) (ho : ∀ u, o = .next u → P u) (hf : ∀ u, f u = .next t → P u → P t) :
    P t := by
  unfold unlessUnwound at h
  obtain ⟨u, h1, h2⟩ := andThen_next h
  split at h2
  · cases h2; exact ho _ h1
  · exact hf u h2 (ho _ h1)

theorem shortFrame {v : Byte} {sr : Half} {pc : Word} (h : shortFrame v sr pc s = .next t) (hs : P s) : P t := by
  unfold Machine.shortFrame at h
  refine unwound h (fun u hu => hP.cpuWrite hu (hP.setCore _ hs)) fun u h hu => ?_
  refine unwound h (fun u hu' => hP.cpuWrite hu' hu) fun u h hu => ?_
  cases h
  exact hP.setCore _ hu

theorem takeException {v : Byte} {pc : Word} (h : takeException v pc s = .next t) (hs : P s) : P t :=
  hP.shortFrame h (hP.enterSupervisor hs)

theorem betweenInstructions (hs : P s) : P (betweenInstructions s) :=
  hP.cpu (s := nextDraw (nextDraw s)) _ rfl (hP.draws _ (hP.draws _ hs))

theorem takeInterrupt (h : takeInterrupt s = .next t) (hs : P s) : P t :=
  hP.shortFrame h (hP.setCore _ (hP.enterSupervisor (hP.betweenInstructions (hP.irqAck _ hs))))

theorem returnFromException (h : returnFromException s = .next t) (hs : P s) : P t := by
  unfold Machine.returnFromException at h
  refine unwound h (fun u hu => hP.cpuRead hu hs) fun u h hu => ?_
  refine unwound h (fun u hu' => hP.cpuRead hu' hu) fun u h hu => ?_
  cases h
  exact hP.setCore _ hu

theorem endInstruction {s0 : State} {o : Host.Outcome State Fault Refusal} (h : endInstruction s0 o = .next t)
    (ho : ∀ u, o = .next u → P u) : P t := by
  unfold Machine.endInstruction at h
  refine unwound h ho fun u h hu => ?_
  split at h
  · exact hP.takeException h (hP.setStopped _ hu)
  · cases h; exact hP.setAhead _ hu

theorem traceAfter {b : Bool} {o : Host.Outcome State Fault Refusal} (h : traceAfter b o = .next t)
    (ho : ∀ u, o = .next u → P u) : P t := by
  unfold Machine.traceAfter at h
  refine unwound h ho fun u h hu => ?_
  split at h
  · exact hP.takeException h hu
  · cases h; exact hu

theorem privileged {s0 : State} {f : State → Host.Outcome State Fault Refusal} (h : privileged s0 f s = .next t)
    (hf : ∀ u, f s = .next u → P u) (hs : P s) : P t := by
  unfold Machine.privileged at h
  split at h
  · exact hP.endInstruction h hf
  · exact hP.takeException h hs

theorem dropAhead (a : Addr) (hs : P s) : P (dropAhead a s) := hP.setAhead _ hs

theorem coreFetch {a : Word} (h : coreFetch a s = .next t) (hs : P s) : P t := by
  unfold Machine.coreFetch at h
  split at h
  · exact hP.cpuRead h hs
  · split at h
    · cases h; exact hP.bus _ (hP.dropAhead _ (hP.draws _ hs))
    · exact hP.cpuRead h (hP.dropAhead _ (hP.draws _ hs))

theorem fetchWord {off : Word} {f : Half → State → Host.Outcome State Fault Refusal}
    (h : fetchWord off f s = .next t) (hf : ∀ v u, f v u = .next t → P u → P t) (hs : P s) : P t := by
  unfold Machine.fetchWord at h
  exact unwound h (fun u hu => hP.coreFetch hu hs) fun u h hu => hf _ _ h hu

theorem fetchLong {off : Word} {f : Word → State → Host.Outcome State Fault Refusal}
    (h : fetchLong off f s = .next t) (hf : ∀ v u, f v u = .next t → P u → P t) (hs : P s) : P t := by
  unfold Machine.fetchLong at h
  exact hP.fetchWord h (fun _ _ h hu => hP.fetchWord h (fun _ _ h hu => hf _ _ h hu) hu) hs

theorem advanceWith {n : Word} {r : CoreRegs} (h : advanceWith n r s = .next t) (hs : P s) : P t := by
  cases h
  exact hP.setCore _ hs

theorem coreMoveImmAbs {w : Width} (h : coreMoveImmAbs w s = .next t) (hs : P s) : P t := by
  unfold Machine.coreMoveImmAbs at h
  dsimp only at h
  have store : ∀ (a v : Word) (u u' : State), unlessUnwound (Machine.cpuWrite w a v u)
      (fun s2 => Machine.advanceWith u'.cpu.ipc { s2.cpu.regs with sr := srMove w v s2.cpu.regs.sr } s2) = .next t →
      P u → P t := by
    intro a v u u' h hu
    exact unwound h (fun _ h' => hP.cpuWrite h' hu) fun _ h' hu' => hP.advanceWith h' hu'
  split at h
  · refine hP.fetchLong h (fun v u h hu => hP.fetchLong h (fun a u h hu => ?_) hu) hs
    exact unwound h (fun _ h' => hP.cpuWrite h' hu) fun _ h' hu' => hP.advanceWith h' hu'
  all_goals
    refine hP.fetchWord h (fun v u h hu => hP.fetchLong h (fun a u h hu => ?_) hu) hs
    exact unwound h (fun _ h' => hP.cpuWrite h' hu) fun _ h' hu' => hP.advanceWith h' hu'

theorem coreMoveAbsD {w : Width} {n : BitVec 3} (h : coreMoveAbsD w n s = .next t) (hs : P s) : P t := by
  refine hP.fetchLong h (fun a u h hu => ?_) hs
  exact unwound h (fun _ h' => hP.cpuRead h' hu) fun _ h' hu' => hP.advanceWith h' hu'

theorem coreMoveDAbs {n : BitVec 3} (h : coreMoveDAbs n s = .next t) (hs : P s) : P t := by
  refine hP.fetchLong h (fun a u h hu => ?_) hs
  exact unwound h (fun _ h' => hP.cpuWrite h' hu) fun _ h' hu' => hP.advanceWith h' hu'

theorem coreBtst (h : coreBtst s = .next t) (hs : P s) : P t := by
  refine hP.fetchWord h (fun b u h hu => hP.fetchLong h (fun a u h hu => ?_) hu) hs
  exact unwound h (fun _ h' => hP.cpuRead h' hu) fun _ h' hu' => hP.advanceWith h' hu'

theorem coreStop (h : coreStop s = .next t) (hs : P s) : P t := by
  refine hP.fetchWord h (fun v u h hu => ?_) hs
  obtain ⟨u', h1, h2⟩ := andThen_next h
  cases h2
  exact hP.setStopped _ (hP.advanceWith h1 hu)

theorem coreException {n : Byte} {next : Word} (h : coreException n next s = .next t) (hs : P s) : P t := by
  unfold Machine.coreException at h
  split at h
  · exact hP.takeException h hs
  · split at h
    · exact hP.traceAfter h fun _ h' => hP.takeException h' hs
    · cases h

theorem coreRead {w : Width} {a : Word} {prog : Bool} (h : coreRead w a prog s = .next t) (hs : P s) : P t := by
  unfold Machine.coreRead at h
  split at h
  · split at h
    · exact hP.coreFetch h hs
    · exact hP.cpuRead h hs
  all_goals exact hP.cpuRead h hs

theorem commitRegs (r : CoreRegs) (hs : P s) : P (commitRegs r s) := hP.setCore _ hs

theorem coreRun {s0 : State} {fuel : Nat} {reads : List Word} (h : coreRun s0 fuel reads s = .next t) (hs : P s) : P t := by
  induction fuel generalizing reads s with
  | zero => cases h
  | succ n ih =>
    unfold Machine.coreRun at h
    split at h
    · exact unwound h (fun _ h' => hP.coreRead h' (hP.commitRegs _ hs)) fun _ h' hu => ih h' hu
    · exact unwound h (fun _ h' => hP.cpuWrite h' (hP.commitRegs _ hs)) fun _ h' hu => ih h' hu
    · exact hP.endInstruction h fun _ h' => by cases h'; exact hP.commitRegs _ hs
    · exact hP.privileged h (fun _ h' => by cases h'; exact hP.setCore _ hs) hs
    · exact hP.coreException h (hP.commitRegs _ hs)
    · exact hP.privileged h (fun _ h' => by cases h'; exact hP.setCore _ hs) hs
    · cases h

theorem coreExecute (h : coreExecute s = .next t) (hs : P s) : P t := by
  unfold Machine.coreExecute at h
  dsimp only at h
  split at h
  · exact hP.endInstruction h fun _ h' => hP.coreMoveImmAbs h' hs
  · exact hP.endInstruction h fun _ h' => hP.coreMoveAbsD h' hs
  · exact hP.endInstruction h fun _ h' => hP.coreMoveDAbs h' hs
  · exact hP.endInstruction h fun _ h' => hP.coreBtst h' hs
  · exact hP.endInstruction h fun _ h' => by cases h'; exact hP.setCore _ hs
  · exact hP.endInstruction h fun _ h' => by cases h'; exact hP.setCore _ hs
  · exact hP.endInstruction h fun _ h' => by cases h'; exact hP.setCore _ hs
  · exact hP.endInstruction h fun _ h' => hP.advanceWith h' hs
  · exact hP.endInstruction h fun _ h' => hP.advanceWith h' hs
  · exact hP.privileged h (fun _ h' => hP.coreStop h' hs) hs
  · exact hP.privileged h (fun _ h' => hP.returnFromException h' hs) hs
  · exact hP.takeException h hs
  · exact hP.takeException h hs
  · exact hP.takeException h hs
  · exact hP.coreRun h hs

/-- Every boundary of the core keeps the property. -/
theorem coreStep (h : coreStep s = .next t) (hs : P s) : P t := by
  unfold Machine.coreStep at h
  dsimp only at h
  have h0 : P (Machine.markBerr false s) := hP.markBerr _ hs
  split at h
  · exact hP.takeInterrupt h (hP.setStopped _ h0)
  · split at h
    · cases h; exact h0
    · unfold Machine.coreInstruction at h
      refine hP.fetchWord h (fun v u h hu => hP.coreExecute h (hP.cpu _ rfl hu)) ?_
      exact hP.cpu _ rfl (hP.draws _ h0)

end CoreClosed

/-! The host agent and the frame loop. -/

namespace Closed

variable {P : State → Prop} (hP : Closed P) {s t : State}
include hP

theorem deliver (x : Config.HostStep) (hs : P s) : P (deliver x s) := by
  cases x with
  | mouseMove hx hy =>
    show P (hostMouseMove hx hy s)
    unfold hostMouseMove
    split
    · exact hP.pushQueue _ hs
    · exact hs
  | mouseButton l r =>
    show P (hostMouseButton l r s)
    unfold hostMouseButton
    dsimp only
    split
    · exact hP.pushQueue _ (hP.ikbd _ hs)
    · exact hP.ikbd _ hs
  | joystick i p =>
    show P (hostJoystick i p s)
    unfold hostJoystick
    dsimp only
    split
    · exact hP.ikbd _ (hP.pushQueue _ hs)
    · exact hP.ikbd _ hs
  | key c d => exact hP.pushQueue _ hs
  | insertSt f w =>
    show P (insertDisk (loadSt f w) s)
    unfold insertDisk
    split
    · exact hP.disk _ hs
    · exact hs
  | insertMsa f w =>
    show P (insertDisk (loadMsa _ f w) s)
    unfold insertDisk
    split
    · exact hP.disk _ hs
    · exact hs
  | eject => exact hP.disk _ hs
  | reset => exact hP.loop _ (.inl rfl) hs
  | shutdown => exact hP.loop _ (.inl rfl) hs

theorem deliverAll (l : List Config.HostStep) (hs : P s) : P (deliverAll l s) := by
  induction l generalizing s with
  | nil => exact hs
  | cons x t ih => exact ih (hP.deliver x hs)

theorem hostTurn (hs : P s) : P (hostTurn s) := by
  unfold Machine.hostTurn
  split
  · exact hs
  · exact hP.deliver _ (hP.host _ hs)

theorem gotoAct (a : Act) (hs : P s) : P (gotoAct a s) := hP.loop _ (.inl rfl) hs

theorem endBatch (n : Nat) (a : Act) (hs : P s) : P (endBatch n a s) := hP.loop _ (.inl rfl) hs

theorem spend (n : Nat) (hs : P s) : P (spend n s) :=
  hP.loop (s := { s with cpu := { s.cpu with clock := s.cpu.clock + n } }) _ (.inl rfl) (hP.cpu _ rfl hs)

theorem batchStep {n : Nat} {a : Act} (h : batchStep n a s = .next t) (hs : P s) : P t := by
  unfold Machine.batchStep at h
  split at h
  · cases h; exact hP.endBatch _ _ hs
  · split at h
    · cases h; exact hP.endBatch _ _ (hP.spend _ hs)
    · obtain ⟨u, h1, h2⟩ := andThen_next h
      cases h2
      have hu := hP.spend (instructionCost s) (hP.coreStep h1 (hP.draws _ hs))
      unfold batchBoundary
      split
      · exact hP.endBatch _ _ hu
      · exact hu

theorem endLine (hs : P s) : P (endLine s) := by
  unfold Machine.endLine
  split
  · next h => exact hP.loop _ (.inr h) hs
  · exact hP.gotoAct _ hs

omit hP in
theorem groupPixels_length (pal : List Word) (d : Bool) (ws : List Half) :
    (groupPixels pal d ws).length = if d then 32 else 16 := by
  unfold groupPixels
  cases d <;> simp [List.length_flatMap, List.map_const']

omit hP in
theorem decodeLine_length (s : State) (vc : Addr) (planes groups : Nat) (d : Bool) :
    (decodeLine s vc planes groups d).length = groups * if d then 32 else 16 := by
  unfold decodeLine
  simp [List.length_flatMap, groupPixels_length, List.map_const']

theorem blitLine {vc : Addr} {row : Nat} (h : blitLine vc row s = .next t) (hs : P s) : P t := by
  unfold Machine.blitLine at h
  split at h
  · cases h; exact hP.row _ _ (by simp [decodeLine_length]) hs
  · cases h; exact hP.row _ _ (by simp [decodeLine_length]) hs
  · cases h

theorem withTurns (hs : P s) : P (withTurns s) := by
  unfold Machine.withTurns
  split
  · exact hP.host (s := nextDraw s) _ (hP.draws _ hs)
  · exact hs

theorem startFrame (hs : P s) : P (startFrame s) :=
  hP.loop (s := videoLatch s) _ (.inr (by show 0 < 313; omega)) (hP.counter _ hs)

theorem beforeFrame (hs : P s) : P (beforeFrame s) := by
  unfold Machine.beforeFrame
  split
  · exact hP.startFrame hs
  · split
    · exact hP.warmReset hs
    all_goals exact hP.gotoAct _ hs

/-- Every step of the emulator agent keeps the property. -/
theorem emulatorStep (h : emulatorStep s = .next t) (hs : P s) : P t := by
  unfold Machine.emulatorStep at h
  split at h
  · cases h; exact hP.beforeFrame hs
  · exact hP.batchStep h hs
  · cases h; exact hP.gotoAct _ (hP.ymSync _ hs)
  · cases h; exact hP.gotoAct _ (hP.updateTimers _ hs)
  · exact hP.batchStep h hs
  · cases h; exact hP.gotoAct _ (hP.ymSync _ hs)
  · cases h; exact hP.gotoAct _ (hP.updateTimers _ hs)
  · cases h; exact hP.gotoAct _ (hP.raiseHbl hs)
  · dsimp only at h
    cases h
    split
    · exact hP.gotoAct _ (hP.aciaSync _ hs)
    · exact hP.endLine (hP.aciaSync _ hs)
  · cases h
    have io : ∀ k : Nat, ioBase ≤ ioBase + k := fun k => Nat.le_add_right _ _
    exact hP.gotoAct _ (hP.store _ _ (.inr (io _)) (hP.store _ _ (.inr (io _)) (hP.store _ _ (.inr (io _)) hs)))
  · obtain ⟨u, h1, h2⟩ := andThen_next h
    cases h2
    exact hP.gotoAct _ (hP.blitLine h1 hs)
  · cases h; exact hP.gotoAct _ (hP.counter _ hs)
  · cases h; exact hP.endLine (hP.tickEvent _ (hP.tickEvent _ hs))
  · cases h; exact hP.gotoAct _ (hP.raiseVbl hs)
  · cases h; exact hP.gotoAct _ (hP.frameComplete (hP.deliverAll _ (hP.host _ hs)))
  · cases h; exact hP.gotoAct _ hs
  · cases h; exact hs

end Closed

/-- THE INDUCTION: a property every primitive change keeps is kept by every step. -/
theorem step_closed {P : State → Prop} (hP : Closed P) {s t : State} (h : step s = .next t) (hs : P s) : P t := by
  unfold step at h
  split at h
  · cases h
  · split at h
    · cases h
    · split at h
      · cases h
      · split at h
        · cases h; exact hs
        · split at h
          · unfold takeTurn at h
            dsimp only at h
            have h0 := hP.withTurns hs
            split at h
            · exact hP.emulatorStep h h0
            · split at h
              · exact hP.emulatorStep h (hP.host _ h0)
              · cases h; exact hP.hostTurn (hP.host _ h0)
              · cases h; exact hP.audioPull _ (hP.host _ h0)
          · unfold runOps at h
            split at h
            · exact hP.exec h (hP.ops _ hs)
            · cases h

end Sys2Proof.Machine
end

