-- ==== Sys2Proof/Laws/Lines.lean ====
section
/-! SUPPORT. Laws/Lines.lean: the MFP as the devices reach it: a bit of a bank pair, raising a channel, driving a GPIP
line, and the start and end of a WD1772 command, each as one closed form over `withIrq`. -/

namespace Sys2Proof
open Machine

theorem withBit5 (v : Byte) (b : Bool) : withBit v 5 b = if b then v ||| 0x20#8 else v &&& 0xDF#8 := by
  cases b <;> rfl
theorem withBit4 (v : Byte) (b : Bool) : withBit v 4 b = if b then v ||| 0x10#8 else v &&& 0xEF#8 := by
  cases b <;> rfl

theorem ierBit_eq (m : Mfp) : ∀ n, n < 16 → ierBit m n = channelBit m.iera m.ierb n := by
  intro n hn
  unfold ierBit channelBit bankWord bit
  rw [BitVec.getLsbD_append]
  by_cases h : n < 8
  · rw [if_pos h, if_neg (by omega)]
  · rw [if_neg h, if_pos (by omega)]

theorem hi8_append (a b : Byte) : hi8 (a ++ b) = a := by
  unfold hi8; rw [BitVec.extractLsb'_append_eq_of_le (by omega)]; simp
theorem lo8_append (a b : Byte) : lo8 (a ++ b) = b := by
  unfold lo8; rw [BitVec.extractLsb'_append_eq_of_add_le (by omega)]; simp
theorem append_or (a b x y : Byte) : ((a ++ b) ||| (x ++ y)) = (a ||| x) ++ (b ||| y) := by
  ext i hi; simp only [BitVec.getElem_or, BitVec.getElem_append]; split <;> rfl
theorem append_and (a b x y : Byte) : ((a ++ b) &&& (x ++ y)) = (a &&& x) ++ (b &&& y) := by
  ext i hi; simp only [BitVec.getElem_and, BitVec.getElem_append]; split <;> rfl

theorem channelMask_eq : ∀ n, n < 16 →
    channelMask n = (if 8 ≤ n then 1#8 <<< (n - 8) else 0#8) ++ (if 8 ≤ n then 0#8 else 1#8 <<< n) := by
  decide

theorem setIpr_eq (m : Mfp) (n : Nat) (h : n < 16) : setIpr m n =
    if 8 ≤ n then { m with ipra := m.ipra ||| (1#8 <<< (n - 8)) } else { m with iprb := m.iprb ||| (1#8 <<< n) } := by
  unfold setIpr bankWord
  rw [channelMask_eq n h, append_or]
  simp only [hi8_append, lo8_append]
  split <;> simp

theorem raised_eq (p : Config.Params) (n : Nat) (m : Mfp) (h : n < 16) :
    raised p n m = if p.mfpIprGatedByIer && !ierBit m n then m else setIpr m n := by
  unfold raised
  rw [ierBit_eq m n h, setIpr_eq m n h]

theorem setIpr7 (m : Mfp) : setIpr m 7 = { m with iprb := m.iprb ||| 0x80#8 } := by rw [setIpr_eq m 7 (by omega)]; rfl
theorem setIpr6 (m : Mfp) : setIpr m 6 = { m with iprb := m.iprb ||| 0x40#8 } := by rw [setIpr_eq m 6 (by omega)]; rfl

theorem updateIrq_eq (s : State) : updateIrq s = withIrq s.mfp s := rfl
theorem setMfpIrq_eq (m : Mfp) (s : State) : setMfpIrq m s = withIrq m s := rfl
theorem withIrq_withIrq (m n : Mfp) (s : State) : withIrq m (withIrq n s) = withIrq m s := rfl

theorem raiseChannel_eq (n : Nat) (s : State) : raiseChannel n s =
    withIrq (if s.params.mfpIprGatedByIer && !ierBit s.mfp n then s.mfp else setIpr s.mfp n) s := by
  unfold raiseChannel
  split <;> rfl

theorem withIrq_ite (e : Bool) (m1 m2 : Mfp) (s : State) :
    withIrq (if e then withIrq m2 { s with mfp := m1 } else { s with mfp := m1 }).mfp
      (if e then withIrq m2 { s with mfp := m1 } else { s with mfp := m1 }) = withIrq (if e then m2 else m1) s := by
  cases e <;> rfl

theorem setGpip_fdc (b : Bool) (s : State) : setGpip .fdc b s = withIrq (fdcLine s.params b s.mfp) s := by
  unfold setGpip
  simp only [lineBit, lineChannel, updateIrq_eq, raiseChannel_eq, withIrq_ite]
  congr 1
  simp only [withBit5, setIpr7, ierBit_eq _ 7 (by omega)]
  have e : channelBit s.mfp.iera s.mfp.ierb 7 = bit s.mfp.ierb 7 := rfl
  simp only [e]
  unfold fdcLine
  by_cases h1 : bit s.mfp.gpip 5 = true <;> by_cases h2 : bit s.mfp.aer 5 = true <;>
    by_cases h3 : s.params.mfpIprGatedByIer = true <;> by_cases h4 : bit s.mfp.ierb 7 = true <;>
    cases b <;> simp_all

theorem setGpip_acia (b : Bool) (s : State) : setGpip .acia b s = withIrq (aciaLine s.params b s.mfp) s := by
  unfold setGpip
  simp only [lineBit, lineChannel, updateIrq_eq, raiseChannel_eq, withIrq_ite]
  congr 1
  simp only [withBit4, setIpr6, ierBit_eq _ 6 (by omega)]
  have e : channelBit s.mfp.iera s.mfp.ierb 6 = bit s.mfp.ierb 6 := rfl
  simp only [e]
  unfold aciaLine
  by_cases h1 : bit s.mfp.gpip 4 = true <;> by_cases h2 : bit s.mfp.aer 4 = true <;>
    by_cases h3 : s.params.mfpIprGatedByIer = true <;> by_cases h4 : bit s.mfp.ierb 6 = true <;>
    cases b <;> simp_all
/-- The start of a command write (43_wd1772_dma.md R310). -/
theorem wdBegin_eq (c : Byte) (s : State) : wdBegin c s = { withIrq (fdcLine s.params true s.mfp) s with
    wd := { s.wd with command := c, status := s.wd.status ||| 0x01#8 } } := by
  unfold wdBegin
  rw [setGpip_fdc]
  rfl

/-- The completion of a command (R328). -/
theorem wdComplete_eq (s : State) : wdComplete s = { withIrq (fdcLine s.params false s.mfp) s with
    wd := { s.wd with status := s.wd.status &&& 0xFE#8, multi := false } } := by
  unfold wdComplete
  rw [setGpip_fdc]
  rfl

/-- A command that leaves a status with BUSY clear. -/
theorem finishWith_eq (st : Byte) (s : State) : finishWith st s = { withIrq (fdcLine s.params false s.mfp) s with
    wd := { s.wd with status := st &&& 0xFE#8, multi := false } } := by
  unfold finishWith
  rw [wdComplete_eq]
  rfl

/-- A command that fails (R322). -/
theorem wdFail_eq (st : Byte) (s : State) : wdFail st s = { withIrq (fdcLine s.params false s.mfp) s with
    wd := { s.wd with status := st &&& 0xFE#8, dmaError := true, multi := false } } := by
  unfold wdFail
  rw [wdComplete_eq]
  rfl

/-- A type I command from its start (43_wd1772_dma.md R310, R316, R328): `w` holds the registers it leaves. -/
theorem finishType1_eq (c : Byte) (s : State) (w : Wd) (hd : w.drive = s.wd.drive) :
    finishType1 { wdBegin c s with wd := w } = { withIrq (fdcPulse s.params s.mfp) s with
      wd := { w with
        multi := false, status := (if w.head = 0 then 0xA4#8 else 0xA0#8) ||| diskBits s.wd s.disk } } := by
  have e : type1Status w.head (driveDisk { s with wd := w }) &&& 0xFE#8
      = (if w.head = 0 then 0xA4#8 else 0xA0#8) ||| diskBits s.wd s.disk := by
    unfold type1Status driveDisk diskBits
    simp only [hd]
    by_cases hh : w.head = 0 <;> rcases s.wd.drive with _ | _ | _ <;> rcases s.disk with _ | d <;> simp [hh]
    all_goals (cases d.writeProtected <;> decide)
  unfold finishType1
  rw [finishWith_eq, wdBegin_eq]
  have e2 : driveDisk { withIrq (fdcLine s.params true s.mfp) s with wd := w } = driveDisk { s with wd := w } := rfl
  simp only [e2, e]
  rfl

end Sys2Proof
end

