-- ==== Sys2Proof/Laws/Mfp.lean ====
section
/-! SUPPORT. Laws/Mfp.lean: the MFP's request depends on the interrupt registers alone, and what the shared operations
of the MFP do to them. -/

namespace Sys2Proof.Machine

/-- Two MFP states with the same interrupt registers. -/
structure SameIrqRegs (m n : Mfp) : Prop where
  iera : n.iera = m.iera
  ierb : n.ierb = m.ierb
  ipra : n.ipra = m.ipra
  iprb : n.iprb = m.iprb
  isra : n.isra = m.isra
  isrb : n.isrb = m.isrb
  imra : n.imra = m.imra
  imrb : n.imrb = m.imrb
  vr : n.vr = m.vr

theorem SameIrqRegs.active {m n : Mfp} (h : SameIrqRegs m n) : mfpActive n = mfpActive m := by
  unfold mfpActive
  rw [h.iera, h.ierb, h.ipra, h.iprb, h.isra, h.isrb, h.imra, h.imrb, h.vr]

/-- The request is that of the interrupt registers (41_mfp68901.md R224, R225). -/
theorem SameIrqRegs.request {m n : Mfp} (h : SameIrqRegs m n) : mfpRequest n = mfpRequest m := by
  unfold mfpRequest
  rw [h.active]

theorem setTimerCounter_same (m : Mfp) (t : Timer) (c : Counter) : SameIrqRegs m (setTimerCounter m t c) := by
  cases t <;> constructor <;> rfl

theorem setTimerData_same (m : Mfp) (t : Timer) (v : Byte) : SameIrqRegs m (setTimerData m t v) := by
  cases t <;> constructor <;> rfl

theorem setAcc_same (n : Nat) (s : State) : SameIrqRegs s.mfp (setAcc n s).mfp := by constructor <;> rfl

theorem writeGpip_same (v : Byte) (s : State) : SameIrqRegs s.mfp (writeGpip v s).mfp := by constructor <;> rfl

theorem writeAer_same (v : Byte) (s : State) : SameIrqRegs s.mfp (writeAer v s).mfp := by constructor <;> rfl

theorem writeDdr_same (v : Byte) (s : State) : SameIrqRegs s.mfp (writeDdr v s).mfp := by constructor <;> rfl

theorem writeTacr_same (v : Byte) (s : State) : SameIrqRegs s.mfp (writeTacr v s).mfp := by constructor <;> rfl

theorem writeTbcr_same (v : Byte) (s : State) : SameIrqRegs s.mfp (writeTbcr v s).mfp := by constructor <;> rfl

theorem writeTcdcr_same (v : Byte) (s : State) : SameIrqRegs s.mfp (writeTcdcr v s).mfp := by constructor <;> rfl

theorem writeTimerData_same (t : Timer) (v : Byte) (s : State) :
    SameIrqRegs s.mfp (writeTimerData t v s).mfp := by
  have h := setTimerData_same s.mfp t v
  have e : (writeTimerData t v s).mfp = if counting s.mfp t then setTimerData s.mfp t v
      else setTimerCounter (setTimerData s.mfp t v) t { timerCounter s.mfp t with cnt := reload v } := rfl
  rw [e]
  split
  · exact h
  · have k := setTimerCounter_same (setTimerData s.mfp t v) t { timerCounter s.mfp t with cnt := reload v }
    exact ⟨k.iera.trans h.iera, k.ierb.trans h.ierb, k.ipra.trans h.ipra, k.iprb.trans h.iprb,
      k.isra.trans h.isra, k.isrb.trans h.isrb, k.imra.trans h.imra, k.imrb.trans h.imrb, k.vr.trans h.vr⟩

/-- After `raise` the request line is the MFP's request (R220, R226). -/
theorem raiseChannel_request (n : Nat) (s : State) :
    (raiseChannel n s).arb.mfp = mfpRequest (raiseChannel n s).mfp
      ∧ (raiseChannel n s).cpu.ipl = iplOf (raiseChannel n s).arb := by
  unfold raiseChannel
  split <;> exact ⟨rfl, rfl⟩

/-- After `set_gpip` the request line is the MFP's request (R222, R226). -/
theorem setGpip_request (l : GpipLine) (b : Bool) (s : State) :
    (setGpip l b s).arb.mfp = mfpRequest (setGpip l b s).mfp
      ∧ (setGpip l b s).cpu.ipl = iplOf (setGpip l b s).arb := ⟨rfl, rfl⟩

/-- A count keeps the request line in step (R218, R220). -/
theorem storeCount_request (t : Timer) (p : Nat) (c : Nat × Bool) {s : State}
    (h : s.arb.mfp = mfpRequest s.mfp ∧ s.cpu.ipl = iplOf s.arb) :
    (storeCount t p c s).arb.mfp = mfpRequest (storeCount t p c s).mfp
      ∧ (storeCount t p c s).cpu.ipl = iplOf (storeCount t p c s).arb := by
  unfold storeCount
  dsimp only
  split
  · exact raiseChannel_request _ _
  · exact ⟨h.1.trans (setTimerCounter_same _ _ _).request.symm, h.2⟩

/-- A delay-mode tick keeps the request line in step. -/
theorem tickDelay_request (t : Timer) (n : Nat) {s : State}
    (h : s.arb.mfp = mfpRequest s.mfp ∧ s.cpu.ipl = iplOf s.arb) :
    (tickDelay t n s).arb.mfp = mfpRequest (tickDelay t n s).mfp
      ∧ (tickDelay t n s).cpu.ipl = iplOf (tickDelay t n s).arb := by
  unfold tickDelay
  split
  · exact h
  · exact storeCount_request _ _ _ h

/-- The accumulator has no part in the request line. -/
theorem setAcc_request (n : Nat) {s : State}
    (h : s.arb.mfp = mfpRequest s.mfp ∧ s.cpu.ipl = iplOf s.arb) :
    (setAcc n s).arb.mfp = mfpRequest (setAcc n s).mfp ∧ (setAcc n s).cpu.ipl = iplOf (setAcc n s).arb :=
  ⟨h.1.trans (setAcc_same n s).request.symm, h.2⟩

/-- `update_timers` keeps the request line in step (R217). -/
theorem updateTimers_request (n : Nat) {s : State}
    (h : s.arb.mfp = mfpRequest s.mfp ∧ s.cpu.ipl = iplOf s.arb) :
    (updateTimers n s).arb.mfp = mfpRequest (updateTimers n s).mfp
      ∧ (updateTimers n s).cpu.ipl = iplOf (updateTimers n s).arb := by
  unfold updateTimers
  exact tickDelay_request _ _ <| tickDelay_request _ _ <| tickDelay_request _ _ <| tickDelay_request _ _ <|
    setAcc_request _ h

/-- `raise` changes nothing of the MFP but IPR. -/
theorem raiseChannel_mfp (n : Nat) (s : State) :
    (raiseChannel n s).mfp
      = { s.mfp with ipra := (raiseChannel n s).mfp.ipra, iprb := (raiseChannel n s).mfp.iprb } := by
  unfold raiseChannel
  split <;> rfl

/-- `set_gpip` changes nothing of the MFP but GPIP and IPR. -/
theorem setGpip_mfp (l : GpipLine) (b : Bool) (s : State) :
    (setGpip l b s).mfp = { s.mfp with
      gpip := withBit s.mfp.gpip (lineBit l) b
      ipra := (setGpip l b s).mfp.ipra
      iprb := (setGpip l b s).mfp.iprb } := by
  have h : ∀ (e : Bool) (n : Nat) (u : State), (updateIrq (if e then raiseChannel n u else u)).mfp
      = { u.mfp with
          ipra := (updateIrq (if e then raiseChannel n u else u)).mfp.ipra
          iprb := (updateIrq (if e then raiseChannel n u else u)).mfp.iprb } := by
    intro e n u
    cases e
    · rfl
    · exact raiseChannel_mfp n u
  exact h _ _ _

/-- The counter after a count stays in 1..256 (R218). -/
theorem countDown_range {c d r : Nat} (hc : c ≤ 256) (hr : 1 ≤ r ∧ r ≤ 256) :
    1 ≤ (countDown c d r).1 ∧ (countDown c d r).1 ≤ 256 := by
  unfold countDown
  split
  · dsimp only; omega
  · have := Nat.mod_lt (d - c) (show r > 0 by omega)
    dsimp only
    omega

/-- `reload` gives 1..256 (10_state.md R46). -/
theorem reload_range (v : Byte) : 1 ≤ reload v ∧ reload v ≤ 256 := by
  unfold reload
  split
  · omega
  · next h =>
    have := v.isLt
    have : v.toNat ≠ 0 := fun e => h (BitVec.eq_of_toNat_eq (by simpa using e))
    omega

/-- The ranges of the counters and of the accumulator (10_state.md R46, R47). -/
structure TimerRange (m : Mfp) : Prop where
  a : 1 ≤ m.timerA.cnt ∧ m.timerA.cnt ≤ 256
  b : 1 ≤ m.timerB.cnt ∧ m.timerB.cnt ≤ 256
  c : 1 ≤ m.timerC.cnt ∧ m.timerC.cnt ≤ 256
  d : 1 ≤ m.timerD.cnt ∧ m.timerD.cnt ≤ 256
  acc : m.acc < Config.cpuHz

/-- Two MFP states with the same counters and accumulator. -/
structure SameCounters (m n : Mfp) : Prop where
  a : n.timerA = m.timerA
  b : n.timerB = m.timerB
  c : n.timerC = m.timerC
  d : n.timerD = m.timerD
  acc : n.acc = m.acc

theorem SameCounters.range {m n : Mfp} (h : SameCounters m n) (r : TimerRange m) : TimerRange n :=
  ⟨h.a ▸ r.a, h.b ▸ r.b, h.c ▸ r.c, h.d ▸ r.d, h.acc ▸ r.acc⟩

theorem raiseChannel_counters (n : Nat) (s : State) : SameCounters s.mfp (raiseChannel n s).mfp := by
  rw [raiseChannel_mfp]
  constructor <;> rfl

theorem setGpip_counters (l : GpipLine) (b : Bool) (s : State) : SameCounters s.mfp (setGpip l b s).mfp := by
  rw [setGpip_mfp]
  constructor <;> rfl

theorem mfpIack_counters (s : State) : SameCounters s.mfp (mfpIack s).2.mfp := by
  unfold mfpIack
  split
  · constructor <;> rfl
  · show SameCounters s.mfp (mfpAcked _ _)
    unfold mfpAcked
    dsimp only
    split <;> constructor <;> rfl

theorem timerCounter_range {m : Mfp} (r : TimerRange m) (t : Timer) :
    1 ≤ (timerCounter m t).cnt ∧ (timerCounter m t).cnt ≤ 256 := by
  cases t
  · exact r.a
  · exact r.b
  · exact r.c
  · exact r.d

theorem setTimerCounter_range {m : Mfp} {c : Counter} (r : TimerRange m) (t : Timer)
    (h : 1 ≤ c.cnt ∧ c.cnt ≤ 256) : TimerRange (setTimerCounter m t c) := by
  cases t
  · exact ⟨h, r.b, r.c, r.d, r.acc⟩
  · exact ⟨r.a, h, r.c, r.d, r.acc⟩
  · exact ⟨r.a, r.b, h, r.d, r.acc⟩
  · exact ⟨r.a, r.b, r.c, h, r.acc⟩

theorem setAcc_range {n : Nat} {s : State} (hn : n < Config.cpuHz) (r : TimerRange s.mfp) :
    TimerRange (setAcc n s).mfp := ⟨r.a, r.b, r.c, r.d, hn⟩

theorem storeCount_range {t : Timer} {p : Nat} {c : Nat × Bool} {s : State} (h : 1 ≤ c.1 ∧ c.1 ≤ 256)
    (r : TimerRange s.mfp) : TimerRange (storeCount t p c s).mfp := by
  have k := setTimerCounter_range (c := { cnt := c.1, phase := p }) r t h
  unfold storeCount
  dsimp only
  split
  · exact (raiseChannel_counters _ _).range k
  · exact k

theorem tickDelay_range {t : Timer} {n : Nat} {s : State} (r : TimerRange s.mfp) :
    TimerRange (tickDelay t n s).mfp := by
  unfold tickDelay
  split
  · exact r
  · exact storeCount_range (countDown_range (timerCounter_range r t).2 (reload_range _)) r

theorem tickEvent_range {t : Timer} {s : State} (r : TimerRange s.mfp) : TimerRange (tickEvent t s).mfp := by
  unfold tickEvent
  split
  · exact storeCount_range (countDown_range (timerCounter_range r t).2 (reload_range _)) r
  · exact r

theorem updateTimers_range {n : Nat} {s : State} (r : TimerRange s.mfp) : TimerRange (updateTimers n s).mfp := by
  unfold updateTimers
  exact tickDelay_range <| tickDelay_range <| tickDelay_range <| tickDelay_range <|
    setAcc_range (Nat.mod_lt _ (by decide)) r

theorem setTimerData_counters (m : Mfp) (t : Timer) (v : Byte) : SameCounters m (setTimerData m t v) := by
  cases t <;> constructor <;> rfl

theorem mfpWrite_range (g : MfpReg) (v : Byte) {s : State} (r : TimerRange s.mfp) :
    TimerRange (mfpWrite g v s).mfp := by
  have data : ∀ t : Timer, TimerRange (writeTimerData t v s).mfp := by
    intro t
    have k := (setTimerData_counters s.mfp t v).range r
    unfold writeTimerData
    dsimp only
    split
    · exact k
    · exact setTimerCounter_range k t (reload_range v)
  cases g
  case tadr => exact data .a
  case tbdr => exact data .b
  case tcdr => exact data .c
  case tddr => exact data .d
  case vr =>
    show TimerRange (if bit v 3 then _ else _)
    split <;> exact ⟨r.a, r.b, r.c, r.d, r.acc⟩
  all_goals exact ⟨r.a, r.b, r.c, r.d, r.acc⟩

end Sys2Proof.Machine
end

