-- ==== Sys2Proof/Laws/PerInstr.lean ====
section
/-! SUPPORT. Laws/PerInstr.lean: one fact of every operation, by its constructor: its frame has at least the three bytes
that the decoder reads first, and at most the nine of the longest IKBD command (Decode.lean; log 1). -/

namespace Sys2Proof.Laws

open Machine

/-- The frame of an operation fits the decoder's bounds. -/
def FrameLen.Statement (i : Instr) : Prop := 3 ≤ (encode i).length ∧ (encode i).length ≤ maxFrame

/-- A bus frame has 4 to 8 bytes. -/
theorem busFrame_bounds (a : Addr) (acc : Access) :
    3 ≤ (busFrame a acc).length ∧ (busFrame a acc).length ≤ maxFrame := by
  cases acc <;> exact ⟨Nat.le_of_ble_eq_true rfl, Nat.le_of_ble_eq_true rfl⟩

/-- A command frame has its three bytes and its parameters. -/
theorem commandFrame_bounds (c sp : Byte) (ps : List Byte) (h : ps.length ≤ 6) :
    3 ≤ (commandFrame c sp ps).length ∧ (commandFrame c sp ps).length ≤ maxFrame := by
  have e : (commandFrame c sp ps).length = ps.length + 3 := rfl
  unfold maxFrame
  omega

theorem FrameLen.fdcDmaDataRd16 : FrameLen.Statement .fdcDmaDataRd16 :=
  busFrame_bounds _ _

theorem FrameLen.fdcDmaDataWr16 (v : Half) : FrameLen.Statement (.fdcDmaDataWr16 v) :=
  busFrame_bounds _ _

theorem FrameLen.fdcDmaDataHiRd8 : FrameLen.Statement .fdcDmaDataHiRd8 :=
  busFrame_bounds _ _

theorem FrameLen.fdcDmaDataHiWr8 (v : Byte) : FrameLen.Statement (.fdcDmaDataHiWr8 v) :=
  busFrame_bounds _ _

theorem FrameLen.fdcDmaDataLoRd8 : FrameLen.Statement .fdcDmaDataLoRd8 :=
  busFrame_bounds _ _

theorem FrameLen.fdcDmaDataLoWr8 (v : Byte) : FrameLen.Statement (.fdcDmaDataLoWr8 v) :=
  busFrame_bounds _ _

theorem FrameLen.dmaStatusRd16 : FrameLen.Statement .dmaStatusRd16 :=
  busFrame_bounds _ _

theorem FrameLen.dmaModeWr16 (v : Half) : FrameLen.Statement (.dmaModeWr16 v) :=
  busFrame_bounds _ _

theorem FrameLen.dmaStatusHiRd8 : FrameLen.Statement .dmaStatusHiRd8 :=
  busFrame_bounds _ _

theorem FrameLen.dmaModeHiWr8 (v : Byte) : FrameLen.Statement (.dmaModeHiWr8 v) :=
  busFrame_bounds _ _

theorem FrameLen.dmaStatusLoRd8 : FrameLen.Statement .dmaStatusLoRd8 :=
  busFrame_bounds _ _

theorem FrameLen.dmaModeLoWr8 (v : Byte) : FrameLen.Statement (.dmaModeLoWr8 v) :=
  busFrame_bounds _ _

theorem FrameLen.dmaAddrHiRd8 : FrameLen.Statement .dmaAddrHiRd8 :=
  busFrame_bounds _ _

theorem FrameLen.dmaAddrHiWr8 (v : Byte) : FrameLen.Statement (.dmaAddrHiWr8 v) :=
  busFrame_bounds _ _

theorem FrameLen.dmaAddrMidRd8 : FrameLen.Statement .dmaAddrMidRd8 :=
  busFrame_bounds _ _

theorem FrameLen.dmaAddrMidWr8 (v : Byte) : FrameLen.Statement (.dmaAddrMidWr8 v) :=
  busFrame_bounds _ _

theorem FrameLen.dmaAddrLoRd8 : FrameLen.Statement .dmaAddrLoRd8 :=
  busFrame_bounds _ _

theorem FrameLen.dmaAddrLoWr8 (v : Byte) : FrameLen.Statement (.dmaAddrLoWr8 v) :=
  busFrame_bounds _ _

theorem FrameLen.ymSelectWr8 (v : Byte) : FrameLen.Statement (.ymSelectWr8 v) :=
  busFrame_bounds _ _

theorem FrameLen.ymDataRd8 : FrameLen.Statement .ymDataRd8 :=
  busFrame_bounds _ _

theorem FrameLen.ymDataWr8 (v : Byte) : FrameLen.Statement (.ymDataWr8 v) :=
  busFrame_bounds _ _

theorem FrameLen.ymFf8802Rd8 : FrameLen.Statement .ymFf8802Rd8 :=
  busFrame_bounds _ _

theorem FrameLen.mfpGpipRd8 : FrameLen.Statement .mfpGpipRd8 :=
  busFrame_bounds _ _

theorem FrameLen.mfpGpipWr8 (v : Byte) : FrameLen.Statement (.mfpGpipWr8 v) :=
  busFrame_bounds _ _

theorem FrameLen.mfpAerRd8 : FrameLen.Statement .mfpAerRd8 :=
  busFrame_bounds _ _

theorem FrameLen.mfpAerWr8 (v : Byte) : FrameLen.Statement (.mfpAerWr8 v) :=
  busFrame_bounds _ _

theorem FrameLen.mfpDdrRd8 : FrameLen.Statement .mfpDdrRd8 :=
  busFrame_bounds _ _

theorem FrameLen.mfpDdrWr8 (v : Byte) : FrameLen.Statement (.mfpDdrWr8 v) :=
  busFrame_bounds _ _

theorem FrameLen.mfpIeraRd8 : FrameLen.Statement .mfpIeraRd8 :=
  busFrame_bounds _ _

theorem FrameLen.mfpIeraWr8 (v : Byte) : FrameLen.Statement (.mfpIeraWr8 v) :=
  busFrame_bounds _ _

theorem FrameLen.mfpIerbRd8 : FrameLen.Statement .mfpIerbRd8 :=
  busFrame_bounds _ _

theorem FrameLen.mfpIerbWr8 (v : Byte) : FrameLen.Statement (.mfpIerbWr8 v) :=
  busFrame_bounds _ _

theorem FrameLen.mfpIpraRd8 : FrameLen.Statement .mfpIpraRd8 :=
  busFrame_bounds _ _

theorem FrameLen.mfpIpraWr8 (v : Byte) : FrameLen.Statement (.mfpIpraWr8 v) :=
  busFrame_bounds _ _

theorem FrameLen.mfpIprbRd8 : FrameLen.Statement .mfpIprbRd8 :=
  busFrame_bounds _ _

theorem FrameLen.mfpIprbWr8 (v : Byte) : FrameLen.Statement (.mfpIprbWr8 v) :=
  busFrame_bounds _ _

theorem FrameLen.mfpIsraRd8 : FrameLen.Statement .mfpIsraRd8 :=
  busFrame_bounds _ _

theorem FrameLen.mfpIsraWr8 (v : Byte) : FrameLen.Statement (.mfpIsraWr8 v) :=
  busFrame_bounds _ _

theorem FrameLen.mfpIsrbRd8 : FrameLen.Statement .mfpIsrbRd8 :=
  busFrame_bounds _ _

theorem FrameLen.mfpIsrbWr8 (v : Byte) : FrameLen.Statement (.mfpIsrbWr8 v) :=
  busFrame_bounds _ _

theorem FrameLen.mfpImraRd8 : FrameLen.Statement .mfpImraRd8 :=
  busFrame_bounds _ _

theorem FrameLen.mfpImraWr8 (v : Byte) : FrameLen.Statement (.mfpImraWr8 v) :=
  busFrame_bounds _ _

theorem FrameLen.mfpImrbRd8 : FrameLen.Statement .mfpImrbRd8 :=
  busFrame_bounds _ _

theorem FrameLen.mfpImrbWr8 (v : Byte) : FrameLen.Statement (.mfpImrbWr8 v) :=
  busFrame_bounds _ _

theorem FrameLen.mfpVrRd8 : FrameLen.Statement .mfpVrRd8 :=
  busFrame_bounds _ _

theorem FrameLen.mfpVrWr8 (v : Byte) : FrameLen.Statement (.mfpVrWr8 v) :=
  busFrame_bounds _ _

theorem FrameLen.mfpTacrRd8 : FrameLen.Statement .mfpTacrRd8 :=
  busFrame_bounds _ _

theorem FrameLen.mfpTacrWr8 (v : Byte) : FrameLen.Statement (.mfpTacrWr8 v) :=
  busFrame_bounds _ _

theorem FrameLen.mfpTbcrRd8 : FrameLen.Statement .mfpTbcrRd8 :=
  busFrame_bounds _ _

theorem FrameLen.mfpTbcrWr8 (v : Byte) : FrameLen.Statement (.mfpTbcrWr8 v) :=
  busFrame_bounds _ _

theorem FrameLen.mfpTcdcrRd8 : FrameLen.Statement .mfpTcdcrRd8 :=
  busFrame_bounds _ _

theorem FrameLen.mfpTcdcrWr8 (v : Byte) : FrameLen.Statement (.mfpTcdcrWr8 v) :=
  busFrame_bounds _ _

theorem FrameLen.mfpTadrRd8 : FrameLen.Statement .mfpTadrRd8 :=
  busFrame_bounds _ _

theorem FrameLen.mfpTadrWr8 (v : Byte) : FrameLen.Statement (.mfpTadrWr8 v) :=
  busFrame_bounds _ _

theorem FrameLen.mfpTbdrRd8 : FrameLen.Statement .mfpTbdrRd8 :=
  busFrame_bounds _ _

theorem FrameLen.mfpTbdrWr8 (v : Byte) : FrameLen.Statement (.mfpTbdrWr8 v) :=
  busFrame_bounds _ _

theorem FrameLen.mfpTcdrRd8 : FrameLen.Statement .mfpTcdrRd8 :=
  busFrame_bounds _ _

theorem FrameLen.mfpTcdrWr8 (v : Byte) : FrameLen.Statement (.mfpTcdrWr8 v) :=
  busFrame_bounds _ _

theorem FrameLen.mfpTddrRd8 : FrameLen.Statement .mfpTddrRd8 :=
  busFrame_bounds _ _

theorem FrameLen.mfpTddrWr8 (v : Byte) : FrameLen.Statement (.mfpTddrWr8 v) :=
  busFrame_bounds _ _

theorem FrameLen.aciaStatusRd8 : FrameLen.Statement .aciaStatusRd8 :=
  busFrame_bounds _ _

theorem FrameLen.aciaControlWr8 (v : Byte) : FrameLen.Statement (.aciaControlWr8 v) :=
  busFrame_bounds _ _

theorem FrameLen.aciaDataRd8 : FrameLen.Statement .aciaDataRd8 :=
  busFrame_bounds _ _

theorem FrameLen.aciaDataWr8 (v : Byte) : FrameLen.Statement (.aciaDataWr8 v) :=
  busFrame_bounds _ _

theorem FrameLen.mmuConfig (acc : Access) : FrameLen.Statement (.mmuConfig acc) :=
  busFrame_bounds _ _

theorem FrameLen.videoBaseHi (acc : Access) : FrameLen.Statement (.videoBaseHi acc) :=
  busFrame_bounds _ _

theorem FrameLen.videoBaseMid (acc : Access) : FrameLen.Statement (.videoBaseMid acc) :=
  busFrame_bounds _ _

theorem FrameLen.videoCounterHi (acc : Access) : FrameLen.Statement (.videoCounterHi acc) :=
  busFrame_bounds _ _

theorem FrameLen.videoCounterMid (acc : Access) : FrameLen.Statement (.videoCounterMid acc) :=
  busFrame_bounds _ _

theorem FrameLen.videoCounterLo (acc : Access) : FrameLen.Statement (.videoCounterLo acc) :=
  busFrame_bounds _ _

theorem FrameLen.syncMode (acc : Access) : FrameLen.Statement (.syncMode acc) :=
  busFrame_bounds _ _

theorem FrameLen.palette (off : BitVec 5) (acc : Access) : FrameLen.Statement (.palette off acc) :=
  busFrame_bounds _ _

theorem FrameLen.resolution (acc : Access) : FrameLen.Statement (.resolution acc) :=
  busFrame_bounds _ _

theorem FrameLen.unclaimedIo (a : Addr) (acc : Access) : FrameLen.Statement (.unclaimedIo a acc) :=
  busFrame_bounds _ _

theorem FrameLen.berrSteDmaSound (a : Addr) (acc : Access) : FrameLen.Statement (.berrSteDmaSound a acc) :=
  busFrame_bounds _ _

theorem FrameLen.berrBlitter (a : Addr) (acc : Access) : FrameLen.Statement (.berrBlitter a acc) :=
  busFrame_bounds _ _

theorem FrameLen.berrSteJoystick (a : Addr) (acc : Access) : FrameLen.Statement (.berrSteJoystick a acc) :=
  busFrame_bounds _ _

theorem FrameLen.fdcRestore (fl : BitVec 4) : FrameLen.Statement (.fdcRestore fl) :=
  commandFrame_bounds _ _ _ (Nat.le_of_ble_eq_true rfl)

theorem FrameLen.fdcSeek (fl : BitVec 4) : FrameLen.Statement (.fdcSeek fl) :=
  commandFrame_bounds _ _ _ (Nat.le_of_ble_eq_true rfl)

theorem FrameLen.fdcStep (fl : BitVec 4) : FrameLen.Statement (.fdcStep fl) :=
  commandFrame_bounds _ _ _ (Nat.le_of_ble_eq_true rfl)

theorem FrameLen.fdcStepU (fl : BitVec 4) : FrameLen.Statement (.fdcStepU fl) :=
  commandFrame_bounds _ _ _ (Nat.le_of_ble_eq_true rfl)

theorem FrameLen.fdcStepIn (fl : BitVec 4) : FrameLen.Statement (.fdcStepIn fl) :=
  commandFrame_bounds _ _ _ (Nat.le_of_ble_eq_true rfl)

theorem FrameLen.fdcStepInU (fl : BitVec 4) : FrameLen.Statement (.fdcStepInU fl) :=
  commandFrame_bounds _ _ _ (Nat.le_of_ble_eq_true rfl)

theorem FrameLen.fdcStepOut (fl : BitVec 4) : FrameLen.Statement (.fdcStepOut fl) :=
  commandFrame_bounds _ _ _ (Nat.le_of_ble_eq_true rfl)

theorem FrameLen.fdcStepOutU (fl : BitVec 4) : FrameLen.Statement (.fdcStepOutU fl) :=
  commandFrame_bounds _ _ _ (Nat.le_of_ble_eq_true rfl)

theorem FrameLen.fdcReadSector (fl : BitVec 4) : FrameLen.Statement (.fdcReadSector fl) :=
  commandFrame_bounds _ _ _ (Nat.le_of_ble_eq_true rfl)

theorem FrameLen.fdcReadSectorMulti (fl : BitVec 4) : FrameLen.Statement (.fdcReadSectorMulti fl) :=
  commandFrame_bounds _ _ _ (Nat.le_of_ble_eq_true rfl)

theorem FrameLen.fdcWriteSector (fl : BitVec 4) : FrameLen.Statement (.fdcWriteSector fl) :=
  commandFrame_bounds _ _ _ (Nat.le_of_ble_eq_true rfl)

theorem FrameLen.fdcWriteSectorMulti (fl : BitVec 4) : FrameLen.Statement (.fdcWriteSectorMulti fl) :=
  commandFrame_bounds _ _ _ (Nat.le_of_ble_eq_true rfl)

theorem FrameLen.fdcReadAddress (fl : BitVec 4) : FrameLen.Statement (.fdcReadAddress fl) :=
  commandFrame_bounds _ _ _ (Nat.le_of_ble_eq_true rfl)

theorem FrameLen.fdcForceInterrupt (fl : BitVec 4) : FrameLen.Statement (.fdcForceInterrupt fl) :=
  commandFrame_bounds _ _ _ (Nat.le_of_ble_eq_true rfl)

theorem FrameLen.fdcReadTrack (fl : BitVec 4) : FrameLen.Statement (.fdcReadTrack fl) :=
  commandFrame_bounds _ _ _ (Nat.le_of_ble_eq_true rfl)

theorem FrameLen.fdcWriteTrack (fl : BitVec 4) : FrameLen.Statement (.fdcWriteTrack fl) :=
  commandFrame_bounds _ _ _ (Nat.le_of_ble_eq_true rfl)

theorem FrameLen.setMouseButtonAction (p1 : Byte) : FrameLen.Statement (.setMouseButtonAction p1) :=
  commandFrame_bounds _ _ _ (Nat.le_of_ble_eq_true rfl)

theorem FrameLen.setRelativeMouse : FrameLen.Statement .setRelativeMouse :=
  commandFrame_bounds _ _ _ (Nat.le_of_ble_eq_true rfl)

theorem FrameLen.setAbsoluteMouse (p1 : Byte) (p2 : Byte) (p3 : Byte) (p4 : Byte) : FrameLen.Statement (.setAbsoluteMouse p1 p2 p3 p4) :=
  commandFrame_bounds _ _ _ (Nat.le_of_ble_eq_true rfl)

theorem FrameLen.setMouseKeycodeMode (p1 : Byte) (p2 : Byte) : FrameLen.Statement (.setMouseKeycodeMode p1 p2) :=
  commandFrame_bounds _ _ _ (Nat.le_of_ble_eq_true rfl)

theorem FrameLen.setMouseThreshold (p1 : Byte) (p2 : Byte) : FrameLen.Statement (.setMouseThreshold p1 p2) :=
  commandFrame_bounds _ _ _ (Nat.le_of_ble_eq_true rfl)

theorem FrameLen.setMouseScale (p1 : Byte) (p2 : Byte) : FrameLen.Statement (.setMouseScale p1 p2) :=
  commandFrame_bounds _ _ _ (Nat.le_of_ble_eq_true rfl)

theorem FrameLen.interrogateMousePosition : FrameLen.Statement .interrogateMousePosition :=
  commandFrame_bounds _ _ _ (Nat.le_of_ble_eq_true rfl)

theorem FrameLen.loadMousePosition (p1 : Byte) (p2 : Byte) (p3 : Byte) (p4 : Byte) (p5 : Byte) : FrameLen.Statement (.loadMousePosition p1 p2 p3 p4 p5) :=
  commandFrame_bounds _ _ _ (Nat.le_of_ble_eq_true rfl)

theorem FrameLen.setYAtBottom : FrameLen.Statement .setYAtBottom :=
  commandFrame_bounds _ _ _ (Nat.le_of_ble_eq_true rfl)

theorem FrameLen.setYAtTop : FrameLen.Statement .setYAtTop :=
  commandFrame_bounds _ _ _ (Nat.le_of_ble_eq_true rfl)

theorem FrameLen.resume : FrameLen.Statement .resume :=
  commandFrame_bounds _ _ _ (Nat.le_of_ble_eq_true rfl)

theorem FrameLen.disableMouse : FrameLen.Statement .disableMouse :=
  commandFrame_bounds _ _ _ (Nat.le_of_ble_eq_true rfl)

theorem FrameLen.pauseOutput : FrameLen.Statement .pauseOutput :=
  commandFrame_bounds _ _ _ (Nat.le_of_ble_eq_true rfl)

theorem FrameLen.setJoystickEventReporting : FrameLen.Statement .setJoystickEventReporting :=
  commandFrame_bounds _ _ _ (Nat.le_of_ble_eq_true rfl)

theorem FrameLen.setJoystickInterrogationMode : FrameLen.Statement .setJoystickInterrogationMode :=
  commandFrame_bounds _ _ _ (Nat.le_of_ble_eq_true rfl)

theorem FrameLen.joystickInterrogate : FrameLen.Statement .joystickInterrogate :=
  commandFrame_bounds _ _ _ (Nat.le_of_ble_eq_true rfl)

theorem FrameLen.setJoystickMonitoring (p1 : Byte) : FrameLen.Statement (.setJoystickMonitoring p1) :=
  commandFrame_bounds _ _ _ (Nat.le_of_ble_eq_true rfl)

theorem FrameLen.setFireButtonMonitoring : FrameLen.Statement .setFireButtonMonitoring :=
  commandFrame_bounds _ _ _ (Nat.le_of_ble_eq_true rfl)

theorem FrameLen.setJoystickKeycodeMode (p1 : Byte) (p2 : Byte) (p3 : Byte) (p4 : Byte) (p5 : Byte) (p6 : Byte) : FrameLen.Statement (.setJoystickKeycodeMode p1 p2 p3 p4 p5 p6) :=
  commandFrame_bounds _ _ _ (Nat.le_of_ble_eq_true rfl)

theorem FrameLen.disableJoysticks : FrameLen.Statement .disableJoysticks :=
  commandFrame_bounds _ _ _ (Nat.le_of_ble_eq_true rfl)

theorem FrameLen.timeOfDayClockSet (p1 : Byte) (p2 : Byte) (p3 : Byte) (p4 : Byte) (p5 : Byte) (p6 : Byte) : FrameLen.Statement (.timeOfDayClockSet p1 p2 p3 p4 p5 p6) :=
  commandFrame_bounds _ _ _ (Nat.le_of_ble_eq_true rfl)

theorem FrameLen.interrogateTimeOfDayClock : FrameLen.Statement .interrogateTimeOfDayClock :=
  commandFrame_bounds _ _ _ (Nat.le_of_ble_eq_true rfl)

theorem FrameLen.memoryLoad (p1 : Byte) (p2 : Byte) (p3 : Byte) : FrameLen.Statement (.memoryLoad p1 p2 p3) :=
  commandFrame_bounds _ _ _ (Nat.le_of_ble_eq_true rfl)

theorem FrameLen.memoryRead (p1 : Byte) (p2 : Byte) : FrameLen.Statement (.memoryRead p1 p2) :=
  commandFrame_bounds _ _ _ (Nat.le_of_ble_eq_true rfl)

theorem FrameLen.controllerExecute (p1 : Byte) (p2 : Byte) : FrameLen.Statement (.controllerExecute p1 p2) :=
  commandFrame_bounds _ _ _ (Nat.le_of_ble_eq_true rfl)

theorem FrameLen.ikbdReset (p1 : Byte) : FrameLen.Statement (.ikbdReset p1) :=
  commandFrame_bounds _ _ _ (Nat.le_of_ble_eq_true rfl)

theorem FrameLen.statusInquiry87 : FrameLen.Statement .statusInquiry87 :=
  commandFrame_bounds _ _ _ (Nat.le_of_ble_eq_true rfl)

theorem FrameLen.statusInquiry88 : FrameLen.Statement .statusInquiry88 :=
  commandFrame_bounds _ _ _ (Nat.le_of_ble_eq_true rfl)

theorem FrameLen.statusInquiry89 : FrameLen.Statement .statusInquiry89 :=
  commandFrame_bounds _ _ _ (Nat.le_of_ble_eq_true rfl)

theorem FrameLen.statusInquiry8A : FrameLen.Statement .statusInquiry8A :=
  commandFrame_bounds _ _ _ (Nat.le_of_ble_eq_true rfl)

theorem FrameLen.statusInquiry8B : FrameLen.Statement .statusInquiry8B :=
  commandFrame_bounds _ _ _ (Nat.le_of_ble_eq_true rfl)

theorem FrameLen.statusInquiry8C : FrameLen.Statement .statusInquiry8C :=
  commandFrame_bounds _ _ _ (Nat.le_of_ble_eq_true rfl)

theorem FrameLen.statusInquiry8F : FrameLen.Statement .statusInquiry8F :=
  commandFrame_bounds _ _ _ (Nat.le_of_ble_eq_true rfl)

theorem FrameLen.statusInquiry90 : FrameLen.Statement .statusInquiry90 :=
  commandFrame_bounds _ _ _ (Nat.le_of_ble_eq_true rfl)

theorem FrameLen.statusInquiry92 : FrameLen.Statement .statusInquiry92 :=
  commandFrame_bounds _ _ _ (Nat.le_of_ble_eq_true rfl)

theorem FrameLen.statusInquiry94 : FrameLen.Statement .statusInquiry94 :=
  commandFrame_bounds _ _ _ (Nat.le_of_ble_eq_true rfl)

theorem FrameLen.statusInquiry95 : FrameLen.Statement .statusInquiry95 :=
  commandFrame_bounds _ _ _ (Nat.le_of_ble_eq_true rfl)

theorem FrameLen.statusInquiry99 : FrameLen.Statement .statusInquiry99 :=
  commandFrame_bounds _ _ _ (Nat.le_of_ble_eq_true rfl)

theorem FrameLen.statusInquiry9A : FrameLen.Statement .statusInquiry9A :=
  commandFrame_bounds _ _ _ (Nat.le_of_ble_eq_true rfl)

theorem FrameLen.unknownFirstByte (b : Byte) : FrameLen.Statement (.unknownFirstByte b) :=
  commandFrame_bounds _ _ _ (Nat.le_of_ble_eq_true rfl)

theorem FrameLen.ymToneAFine (v : Byte) : FrameLen.Statement (.ymToneAFine v) :=
  commandFrame_bounds _ _ _ (Nat.le_of_ble_eq_true rfl)

theorem FrameLen.ymToneACoarse (v : Byte) : FrameLen.Statement (.ymToneACoarse v) :=
  commandFrame_bounds _ _ _ (Nat.le_of_ble_eq_true rfl)

theorem FrameLen.ymToneBFine (v : Byte) : FrameLen.Statement (.ymToneBFine v) :=
  commandFrame_bounds _ _ _ (Nat.le_of_ble_eq_true rfl)

theorem FrameLen.ymToneBCoarse (v : Byte) : FrameLen.Statement (.ymToneBCoarse v) :=
  commandFrame_bounds _ _ _ (Nat.le_of_ble_eq_true rfl)

theorem FrameLen.ymToneCFine (v : Byte) : FrameLen.Statement (.ymToneCFine v) :=
  commandFrame_bounds _ _ _ (Nat.le_of_ble_eq_true rfl)

theorem FrameLen.ymToneCCoarse (v : Byte) : FrameLen.Statement (.ymToneCCoarse v) :=
  commandFrame_bounds _ _ _ (Nat.le_of_ble_eq_true rfl)

theorem FrameLen.ymNoisePeriod (v : Byte) : FrameLen.Statement (.ymNoisePeriod v) :=
  commandFrame_bounds _ _ _ (Nat.le_of_ble_eq_true rfl)

theorem FrameLen.ymMixerEnable (v : Byte) : FrameLen.Statement (.ymMixerEnable v) :=
  commandFrame_bounds _ _ _ (Nat.le_of_ble_eq_true rfl)

theorem FrameLen.ymLevelA (v : Byte) : FrameLen.Statement (.ymLevelA v) :=
  commandFrame_bounds _ _ _ (Nat.le_of_ble_eq_true rfl)

theorem FrameLen.ymLevelB (v : Byte) : FrameLen.Statement (.ymLevelB v) :=
  commandFrame_bounds _ _ _ (Nat.le_of_ble_eq_true rfl)

theorem FrameLen.ymLevelC (v : Byte) : FrameLen.Statement (.ymLevelC v) :=
  commandFrame_bounds _ _ _ (Nat.le_of_ble_eq_true rfl)

theorem FrameLen.ymEnvPeriodFine (v : Byte) : FrameLen.Statement (.ymEnvPeriodFine v) :=
  commandFrame_bounds _ _ _ (Nat.le_of_ble_eq_true rfl)

theorem FrameLen.ymEnvPeriodCoarse (v : Byte) : FrameLen.Statement (.ymEnvPeriodCoarse v) :=
  commandFrame_bounds _ _ _ (Nat.le_of_ble_eq_true rfl)

theorem FrameLen.ymEnvShape (v : Byte) : FrameLen.Statement (.ymEnvShape v) :=
  commandFrame_bounds _ _ _ (Nat.le_of_ble_eq_true rfl)

theorem FrameLen.ymPortA (v : Byte) : FrameLen.Statement (.ymPortA v) :=
  commandFrame_bounds _ _ _ (Nat.le_of_ble_eq_true rfl)

theorem FrameLen.ymPortB (v : Byte) : FrameLen.Statement (.ymPortB v) :=
  commandFrame_bounds _ _ _ (Nat.le_of_ble_eq_true rfl)

theorem FrameLen.iackL1 : FrameLen.Statement .iackL1 :=
  commandFrame_bounds _ _ _ (Nat.le_of_ble_eq_true rfl)

theorem FrameLen.iackL2 : FrameLen.Statement .iackL2 :=
  commandFrame_bounds _ _ _ (Nat.le_of_ble_eq_true rfl)

theorem FrameLen.iackL3 : FrameLen.Statement .iackL3 :=
  commandFrame_bounds _ _ _ (Nat.le_of_ble_eq_true rfl)

theorem FrameLen.iackL4 : FrameLen.Statement .iackL4 :=
  commandFrame_bounds _ _ _ (Nat.le_of_ble_eq_true rfl)

theorem FrameLen.iackL5 : FrameLen.Statement .iackL5 :=
  commandFrame_bounds _ _ _ (Nat.le_of_ble_eq_true rfl)

theorem FrameLen.iackL6 : FrameLen.Statement .iackL6 :=
  commandFrame_bounds _ _ _ (Nat.le_of_ble_eq_true rfl)

theorem FrameLen.iackL7 : FrameLen.Statement .iackL7 :=
  commandFrame_bounds _ _ _ (Nat.le_of_ble_eq_true rfl)

end Sys2Proof.Laws
end

