-- ==== Sys2Proof/Laws/Stack.lean ====
section
/-! SUPPORT. Laws/Stack.lean: words and longs of RAM as the core reads and writes them, and the frames it pushes
(60_exceptions.md R453, R459, R460) when the supervisor stack lies in RAM. -/

namespace Sys2Proof

open Machine

/-- A word stored at a key, big-endian. -/
def storeHalf (k : Nat) (v : Half) (s : State) : State := storeByte (k + 1) (lo8 v) (storeByte k (hi8 v) s)

/-- A long stored at a key, big-endian. -/
def storeLong (k : Nat) (v : Word) (s : State) : State := storeHalf (k + 2) (lo16 v) (storeHalf k (hi16 v) s)

theorem storeHalf_frame (k : Nat) (v : Half) (s : State) :
    storeHalf k v s = { s with mem := (storeHalf k v s).mem } := rfl

theorem storeLong_frame (k : Nat) (v : Word) (s : State) :
    storeLong k v s = { s with mem := (storeLong k v s).mem } := rfl

theorem storeHalf_ok {k : Nat} {v : Half} {s : State} (h : MemOk s) : MemOk (storeHalf k v s) :=
  memWf_memPut (memWf_memPut h _ _) _ _

theorem storeLong_ok {k : Nat} {v : Word} {s : State} (h : MemOk s) : MemOk (storeLong k v s) :=
  storeHalf_ok (storeHalf_ok h)

theorem storeHalf_ne {k i : Nat} (v : Half) (s : State) (h : i < k ∨ k + 2 ≤ i) :
    storedByte (storeHalf k v s) i = storedByte s i := by
  unfold storeHalf
  rw [storedByte_storeByte_ne (by omega), storedByte_storeByte_ne (by omega)]

theorem storeLong_ne {k i : Nat} (v : Word) (s : State) (h : i < k ∨ k + 4 ≤ i) :
    storedByte (storeLong k v s) i = storedByte s i := by
  unfold storeLong
  rw [storeHalf_ne _ _ (by omega), storeHalf_ne _ _ (by omega)]

theorem half_of_bytes (v : Half) : hi8 v ++ lo8 v = v := by
  unfold hi8 lo8
  rw [BitVec.extractLsb'_append_extractLsb'_eq_extractLsb' (by rfl)]
  simp

theorem long_of_halves (v : Word) : hi16 v ++ lo16 v = v := by
  unfold hi16 lo16
  rw [BitVec.extractLsb'_append_extractLsb'_eq_extractLsb' (by rfl)]
  simp

theorem wordAt_storeHalf {k : Nat} {v : Half} {s : State} (h : MemOk s) : wordAt (storeHalf k v s) k = v := by
  unfold wordAt
  have e1 : storedByte (storeHalf k v s) k = hi8 v := by
    unfold storeHalf
    rw [storedByte_storeByte_ne (by omega), storedByte_storeByte_same h]
  have e2 : storedByte (storeHalf k v s) (k + 1) = lo8 v :=
    storedByte_storeByte_same (s := storeByte k (hi8 v) s) (memWf_memPut h _ _) _ _
  rw [e1, e2, half_of_bytes]

theorem wordAt_congr {s t : State} {k : Nat} (h : ∀ i, k ≤ i → i < k + 2 → storedByte t i = storedByte s i) :
    wordAt t k = wordAt s k := by
  unfold wordAt
  rw [h k (by omega) (by omega), h (k + 1) (by omega) (by omega)]

theorem longAt_congr {s t : State} {k : Nat} (h : ∀ i, k ≤ i → i < k + 4 → storedByte t i = storedByte s i) :
    longAt t k = longAt s k := by
  unfold longAt
  rw [wordAt_congr fun i h1 h2 => h i h1 (by omega), wordAt_congr fun i h1 h2 => h i (by omega) (by omega)]

theorem longAt_storeLong {k : Nat} {v : Word} {s : State} (h : MemOk s) : longAt (storeLong k v s) k = v := by
  have e1 : wordAt (storeLong k v s) k = hi16 v :=
    (wordAt_congr fun i h1 h2 => storeHalf_ne _ _ (by omega)).trans (wordAt_storeHalf h)
  have e2 : wordAt (storeLong k v s) (k + 2) = lo16 v := wordAt_storeHalf (storeHalf_ok h)
  unfold longAt
  rw [e1, e2, long_of_halves]

/-- An address inside a block that lies in RAM. -/
theorem addr_add {p : Config.Params} {b : Addr} {n : Nat} (h : inRam p b n) (i : Nat) (hi : i < n) :
    (b + BitVec.ofNat 24 i).toNat = b.toNat + i := by
  have h1 := tosBase_le p
  have h2 := ramBytes_le p
  have hr := h.2
  unfold ioBase at h1
  simp only [BitVec.toNat_add, BitVec.toNat_ofNat]
  rw [Nat.mod_eq_of_lt (a := i) (by omega), Nat.mod_eq_of_lt (by omega)]

theorem write16_half {p : Config.Params} {a : Addr} {s : State} (hp : s.params = p) (h : inRam p a 2) (v : Half) :
    write16 a v s = .next (storeHalf a.toNat v s) := write16_ram h.1 (hp ▸ h.2) v

theorem write32_long {p : Config.Params} {a : Addr} {s : State} (hp : s.params = p) (h : inRam p a 4) (v : Word) :
    write32 a v s = .next (storeLong a.toNat v s) := by
  have e : (a + 2#24).toNat = a.toNat + 2 := addr_add h 2 (by omega)
  have hr := h.2
  have hl := h.1
  unfold write32
  rw [write16_half hp ⟨hl, by omega⟩]
  show write16 (a + 2) (lo16 v) _ = _
  rw [write16_half (p := p) (s := storeHalf a.toNat (hi16 v) s) hp ⟨by show 8 ≤ (a + 2#24).toNat; omega, by show (a + 2#24).toNat + 2 ≤ _; omega⟩]
  show Host.Outcome.next (storeHalf (a + 2#24).toNat _ _) = _
  rw [e]
  rfl

theorem read32_long {p : Config.Params} {a : Addr} {s : State} (hp : s.params = p) (h : inRam p a 4) :
    read32 a s = (longAt s a.toNat, s) := by
  have e : (a + 2#24).toNat = a.toNat + 2 := addr_add h 2 (by omega)
  have hr := h.2
  have hl := h.1
  unfold read32
  rw [read16_ram hl (by rw [hp]; omega)]
  have := read16_ram (a := a + 2) (s := s) (by show 8 ≤ (a + 2#24).toNat; omega)
    (by show (a + 2#24).toNat + 2 ≤ _; rw [hp]; omega)
  dsimp only
  rw [this]
  show _ = (longAt s a.toNat, s)
  simp only [show (a + 2).toNat = a.toNat + 2 from e]
  rfl

theorem cpuWrite_word {p : Config.Params} {a : Word} {s : State} (hp : s.params = p) (he : a.getLsbD 0 = false)
    (h : inRam p (busAddr a) 2) (v : Half) :
    cpuWrite .word a (v.setWidth 32) s = .next (storeHalf (busAddr a).toNat v s) := by
  have e : (v.setWidth 32).setWidth 16 = v := by simp
  unfold cpuWrite misaligned memWrite
  rw [he, firstBusError_ram (p := p) h.2]
  show write16 (busAddr a) ((v.setWidth 32).setWidth 16) s = _
  rw [e, write16_half hp h]

theorem cpuWrite_long {p : Config.Params} {a : Word} {s : State} (hp : s.params = p) (he : a.getLsbD 0 = false)
    (h : inRam p (busAddr a) 4) (v : Word) :
    cpuWrite .long a v s = .next (storeLong (busAddr a).toNat v s) := by
  unfold cpuWrite misaligned memWrite
  rw [he, firstBusError_ram (p := p) h.2]
  exact write32_long hp h v

theorem cpuRead_word {p : Config.Params} {a : Word} {s : State} {prog : Bool} (hp : s.params = p)
    (he : a.getLsbD 0 = false) (h : inRam p (busAddr a) 2) :
    cpuRead .word a prog s = .next { s with bus := (wordAt s (busAddr a).toNat).setWidth 32 } := by
  unfold cpuRead misaligned memRead
  rw [he, firstBusError_ram (p := p) h.2]
  simp only [readRaw, Bool.and_false, Bool.false_eq_true, if_false]
  rw [read16_ram h.1 (hp ▸ h.2)]
  rfl

theorem cpuRead_long {p : Config.Params} {a : Word} {s : State} {prog : Bool} (hp : s.params = p)
    (he : a.getLsbD 0 = false) (h : inRam p (busAddr a) 4) :
    cpuRead .long a prog s = .next { s with bus := longAt s (busAddr a).toNat } := by
  unfold cpuRead misaligned memRead
  rw [he, firstBusError_ram (p := p) h.2]
  simp only [readRaw, Bool.and_false, Bool.false_eq_true, if_false]
  rw [read32_long hp h]
  rfl

theorem busAddr_add (a : Word) (n : Nat) : busAddr (a + BitVec.ofNat 32 n) = busAddr a + BitVec.ofNat 24 n := by
  unfold busAddr
  apply BitVec.eq_of_toNat_eq
  simp [BitVec.toNat_add]

theorem even_add (a : Word) {n : Nat} (hn : n % 2 = 0) : (a + BitVec.ofNat 32 n).getLsbD 0 = a.getLsbD 0 := by
  simp only [BitVec.getLsbD, BitVec.toNat_add, BitVec.toNat_ofNat, Nat.testBit_zero]
  congr 2
  omega

theorem even_sub {a : Word} {n : Nat} (hn : n % 2 = 0) :
    (a - BitVec.ofNat 32 n).getLsbD 0 = a.getLsbD 0 := by
  simp only [BitVec.getLsbD, BitVec.toNat_sub, BitVec.toNat_ofNat, Nat.testBit_zero]
  congr 2
  omega

/-- The short frame on a supervisor stack in RAM (60_exceptions.md R459, R460): SR and PC are stored, SSP drops by 6, and
nothing else changes before the jump. -/
theorem shortFrame_ram {v : Byte} {sr0 : Half} {pc : Word} {s : State} {b : Addr} (hb : b = busAddr (s.cpu.regs.ssp - 6#32))
    (he : s.cpu.regs.ssp.getLsbD 0 = false) (h : inRam s.params b 6) (hm : s.cpu.berr = false) :
    ∃ t : State, shortFrame v sr0 pc s = .next (setPc (vectorAddr v t) t)
      ∧ t = { setCore { s.cpu.regs with ssp := s.cpu.regs.ssp - 6#32 } s with mem := t.mem }
      ∧ (MemOk s → MemOk t ∧ wordAt t b.toNat = sr0 ∧ longAt t (b.toNat + 2) = pc)
      ∧ ∀ k, k < b.toNat ∨ b.toNat + 6 ≤ k → storedByte t k = storedByte s k := by
  have e0 : (s.cpu.regs.ssp - 6#32).getLsbD 0 = false := (even_sub rfl).trans he
  have hl := h.1
  have hr := h.2
  have e2 : busAddr (s.cpu.regs.ssp - 6#32 + 2#32) = b + 2#24 := (busAddr_add _ 2).trans (by rw [hb])
  have e3 : (b + 2#24).toNat = b.toNat + 2 := addr_add h 2 (by omega)
  refine ⟨storeLong (b.toNat + 2) pc (storeHalf b.toNat sr0 (setCore { s.cpu.regs with ssp := s.cpu.regs.ssp - 6#32 } s)),
    ?_, rfl, fun hk => ⟨storeLong_ok (storeHalf_ok hk), ?_, longAt_storeLong (storeHalf_ok hk)⟩, fun k hk => ?_⟩
  · have hp : (setCore { s.cpu.regs with ssp := s.cpu.regs.ssp - 6#32 } s).params = s.params := rfl
    have hm1 : (setCore { s.cpu.regs with ssp := s.cpu.regs.ssp - 6#32 } s).cpu.berr = false := hm
    unfold shortFrame
    simp only
    generalize setCore { s.cpu.regs with ssp := s.cpu.regs.ssp - 6#32 } s = u at hp hm1 ⊢
    rw [cpuWrite_word hp e0 (by rw [← hb]; exact ⟨hl, by omega⟩), ← hb]
    have hp2 : (storeHalf b.toNat sr0 u).params = s.params := hp
    have hm2 : (storeHalf b.toNat sr0 u).cpu.berr = false := hm1
    have hm3 : (storeLong (b.toNat + 2) pc (storeHalf b.toNat sr0 u)).cpu.berr = false := hm1
    unfold unlessUnwound andThen
    simp only [hm2]
    rw [cpuWrite_long hp2 ((even_add _ (n := 2) rfl).trans e0) (by rw [e2]; exact ⟨by omega, by omega⟩), e2, e3]
    simp only [hm3]
    rfl
  · rw [wordAt_congr fun i h1 h2 => storeLong_ne _ _ (by omega)]
    exact wordAt_storeHalf hk
  · rw [storeLong_ne _ _ (by omega), storeHalf_ne _ _ (by omega)]
    rfl

/-- TAKING A SHORT-FRAME EXCEPTION on a supervisor stack in RAM (60_exceptions.md R459). -/
theorem takeException_ram {v : Byte} {pc : Word} {s : State} {b : Addr} (hb : b = busAddr (s.cpu.regs.ssp - 6#32))
    (he : s.cpu.regs.ssp.getLsbD 0 = false) (h : inRam s.params b 6) (hm : s.cpu.berr = false) :
    ∃ t : State, takeException v pc s = .next t
      ∧ t = { s with
          mem := t.mem
          cpu := { s.cpu with
            ahead := []
            regs := { s.cpu.regs with
              ssp := s.cpu.regs.ssp - 6#32, sr := supervisorSr s.cpu.regs.sr, pc := vectorAddr v t } } }
      ∧ (MemOk s → MemOk t ∧ wordAt t b.toNat = s.cpu.regs.sr ∧ longAt t (b.toNat + 2) = pc)
      ∧ ∀ k, k < b.toNat ∨ b.toNat + 6 ≤ k → storedByte t k = storedByte s k := by
  obtain ⟨t, h1, h2, h3, h4⟩ := shortFrame_ram (v := v) (sr0 := s.cpu.regs.sr) (pc := pc) (s := enterSupervisor s) hb he h hm
  refine ⟨_, h1, ?_, h3, h4⟩
  have pk : vectorAddr v (setPc (vectorAddr v t) t) = vectorAddr v t := rfl
  rw [pk]
  generalize vectorAddr v t = pc'
  have : (setPc pc' t).mem = t.mem := rfl
  rw [this]
  generalize t.mem = mm at h2
  rw [h2]
  rfl

/-- The handler of a vector above the ROM mirror is a long of RAM (60_exceptions.md R451). -/
theorem vector_long {v : Byte} {s : State} (h : 2 ≤ v.toNat) : vectorAddr v s = longAt s (4 * v.toNat) := by
  have hv := v.isLt
  have hr : 0x80000 ≤ ramBytes s.params := by unfold ramBytes; cases s.params.ramSize <;> decide
  have e : ∀ i, i < 4 → peekByte s ((v.setWidth 24 <<< 2 : Addr) + BitVec.ofNat 24 i) = storedByte s (4 * v.toNat + i) := by
    intro i hi
    have : ((v.setWidth 24 <<< 2 : Addr) + BitVec.ofNat 24 i).toNat = 4 * v.toNat + i := by
      simp [BitVec.toNat_add, Nat.shiftLeft_eq]; omega
    rw [peekByte_ram (by omega) (by omega), this]
  have e0 := e 0 (by omega)
  have e1 := e 1 (by omega)
  have e2 := e 2 (by omega)
  have e3 := e 3 (by omega)
  rw [BitVec.add_zero] at e0
  unfold vectorAddr longAt wordAt
  exact congrArg₂ HAppend.hAppend (congrArg₂ HAppend.hAppend e0 e1) (congrArg₂ HAppend.hAppend e2 e3)

/-- A fetch of a word the core does not hold from before a store reads memory (20_memory.md R106). -/
theorem coreFetch_fresh {a : Word} {s : State} (h : ∀ e ∈ s.cpu.ahead, e.1 ≠ busAddr a) :
    coreFetch a s = cpuRead .word a true s := by
  have e : aheadAt (busAddr a) s = [] := by
    unfold aheadAt
    split
    · rfl
    · rw [List.filter_eq_nil_iff.2 fun x hx => by simpa using h x hx]; rfl
  unfold coreFetch
  rw [e]

/-- After an instruction that changed no byte, the core may hold only what it held before (log 36). -/
theorem noteAhead_same {s0 s : State} (h : ∀ a, peekByte s a = peekByte s0 a) :
    noteAhead s0 s = setAhead (s.cpu.ahead.filter fun e =>
      e.1 = busAddr s.cpu.regs.pc ∨ e.1 = busAddr s.cpu.regs.pc + 2) s := by
  have w : ∀ a, wordBefore s0 s a = [] := fun a => if_pos (.inr (by unfold peek16; rw [h, h]))
  unfold noteAhead
  simp only [w, List.append_nil]

/-- An instruction whose first word lies in RAM is fetched and executed (40_cpu_integration.md R173). -/
theorem coreStep_fetch {s : State} (h0 : interruptAccepted s.cpu = false) (h1 : s.cpu.stopped = false)
    (he : s.cpu.regs.pc.getLsbD 0 = false) (hin : inRam s.params (s.cpu.regs.pc.setWidth 24) 2)
    (ha : ∀ e ∈ s.cpu.ahead, e.1 ≠ s.cpu.regs.pc.setWidth 24) :
    coreStep s = coreExecute { s with
      draws := s.draws + 1
      bus := (wordAt s (s.cpu.regs.pc.setWidth 24).toNat).setWidth 32
      cpu := { s.cpu with berr := false, ipc := s.cpu.regs.pc, ir := wordAt s (s.cpu.regs.pc.setWidth 24).toNat } } := by
  unfold coreStep
  have a : interruptAccepted (markBerr false s).cpu = false := h0
  have b : (markBerr false s).cpu.stopped = false := h1
  simp only [a, b]
  simp only [Bool.false_eq_true, if_false]
  unfold coreInstruction fetchWord
  have e : (beginInstruction (markBerr false s)).cpu.ipc + 0#32 = s.cpu.regs.pc := by simp [beginInstruction, markBerr, nextDraw]
  have fresh : ∀ x ∈ (beginInstruction (markBerr false s)).cpu.ahead, x.1 ≠ busAddr s.cpu.regs.pc := ha
  rw [e, coreFetch_fresh fresh, cpuRead_word (p := s.params) (s := beginInstruction (markBerr false s)) rfl he hin]
  have w : wordAt (beginInstruction (markBerr false s)) (busAddr s.cpu.regs.pc).toNat = wordAt s (s.cpu.regs.pc.setWidth 24).toNat := rfl
  rw [w]
  have low : ∀ v : Half, (v.setWidth 32).setWidth 16 = v := by intro v; simp
  unfold unlessUnwound andThen
  have c : (beginInstruction (markBerr false s)).cpu.berr = false := rfl
  simp only [c, low]
  rfl

end Sys2Proof
end

