-- ==== Sys2Proof/Laws/Ym.lean ====
section
/-! SUPPORT. Laws/Ym.lean: the ranges of the YM2149's generators, and the audio ring's cap. -/

namespace Sys2Proof.Machine

/-- The LFSR never becomes 0 (42_ym2149.md R262). -/
theorem lfsrStep_ne_zero {r : BitVec 17} (h : r ≠ 0) : (lfsrStep r).1 ≠ 0 := by
  unfold lfsrStep
  intro e
  apply h
  by_cases hb : r.getLsbD 0
  · rw [if_pos hb] at e
    have := congrArg (fun x : BitVec 17 => x.getLsbD 16) e
    simp at this
  · rw [if_neg hb] at e
    ext i hi
    rcases i with _ | i
    · simpa using hb
    · have := congrArg (fun x : BitVec 17 => x.getLsbD i) e
      simp only [BitVec.getLsbD_ushiftRight, Nat.add_comm 1 i] at this
      rw [← BitVec.getLsbD_eq_getElem, this]
      simp

/-- What keeps the generators in range: the LFSR, the envelope position and the ring's length. -/
structure YmRange (cap : Nat) (y : Ym) : Prop where
  rng : y.rng ≠ 0
  envPos : y.envPos < 96
  ring : y.ring.length ≤ cap

theorem tickNoise_range {cap : Nat} {y : Ym} (h : YmRange cap y) : YmRange cap (tickNoise y) := by
  unfold tickNoise
  split
  · exact ⟨lfsrStep_ne_zero h.rng, h.envPos, h.ring⟩
  · exact ⟨h.rng, h.envPos, h.ring⟩

theorem tickEnv_range {cap : Nat} (p : Config.Params) {y : Ym} (h : YmRange cap y) :
    YmRange cap (tickEnv p y) := by
  unfold tickEnv
  split
  · refine ⟨h.rng, ?_, h.ring⟩
    have := h.envPos
    dsimp only
    split
    · unfold envLoopStart; split <;> omega
    · omega
  · exact ⟨h.rng, h.envPos, h.ring⟩

theorem tickGenerators_range {cap : Nat} (p : Config.Params) {y : Ym} (h : YmRange cap y) :
    YmRange cap (tickGenerators p y) := by
  unfold tickGenerators
  exact tickEnv_range p (tickNoise_range ⟨h.rng, h.envPos, h.ring⟩)

/-- A push keeps a ring within its cap (R267). -/
theorem pushSample_length {cap : Nat} (x : Config.FloatBits) {ring : List Config.FloatBits} (h : ring.length ≤ cap) :
    (pushSample cap x ring).length ≤ cap := by
  have e : (ring ++ [x]).length = ring.length + 1 := by simp
  unfold pushSample
  dsimp only
  split
  · rw [List.length_drop]; omega
  · omega

theorem storeSample_range {cap : Nat} (lvl out x : Config.FloatBits) {y : Ym} (h : YmRange cap y) :
    YmRange cap (storeSample cap lvl out x y) := ⟨h.rng, h.envPos, pushSample_length x h.ring⟩

theorem setRacc_range {cap : Nat} (n : Nat) {y : Ym} (h : YmRange cap y) : YmRange cap (setRacc n y) :=
  ⟨h.rng, h.envPos, h.ring⟩

theorem setCyc_range {cap : Nat} (n : Nat) {y : Ym} (h : YmRange cap y) : YmRange cap (setCyc n y) :=
  ⟨h.rng, h.envPos, h.ring⟩

theorem emitSamples_range {p : Config.Params} (n : Nat) {y : Ym} (h : YmRange (p.hostRate / 4) y) :
    YmRange (p.hostRate / 4) (emitSamples p n y) := by
  induction n generalizing y with
  | zero => exact h
  | succ n ih => exact ih (storeSample_range _ _ _ h)

theorem ymTicks_range (p : Config.Params) (n : Nat) {y : Ym} (h : YmRange (p.hostRate / 4) y) :
    YmRange (p.hostRate / 4) (ymTicks p n y) := by
  induction n generalizing y with
  | zero => exact h
  | succ n ih =>
    have e : YmRange (p.hostRate / 4) (ymTick p y) :=
      emitSamples_range _ (setRacc_range _ (tickGenerators_range p h))
    exact ih e

theorem emitSamples_cyc (p : Config.Params) (n : Nat) (y : Ym) : (emitSamples p n y).cyc = y.cyc := by
  induction n generalizing y with
  | zero => rfl
  | succ n ih => exact (ih _).trans (storeSample_cyc _ _ _ _ y)

theorem tickGenerators_cyc (p : Config.Params) (y : Ym) : (tickGenerators p y).cyc = y.cyc := by
  unfold tickGenerators tickEnv tickNoise
  split <;> split <;> rfl

/-- The ticks do not touch the cycles not yet converted (R257). -/
theorem ymTicks_cyc (p : Config.Params) (n : Nat) (y : Ym) : (ymTicks p n y).cyc = y.cyc := by
  induction n generalizing y with
  | zero => rfl
  | succ n ih => exact (ih _).trans <| (emitSamples_cyc _ _ _).trans <| (setRacc_cyc _ _).trans (tickGenerators_cyc p y)

/-- A pull takes from the ring alone (R269). -/
theorem pullSamples_range {cap : Nat} (n : Nat) {y : Ym} (h : YmRange cap y) :
    YmRange cap (pullSamples n y).2 ∧ (pullSamples n y).2.cyc = y.cyc := by
  induction n generalizing y with
  | zero => exact ⟨h, rfl⟩
  | succ n ih =>
    unfold pullSamples
    split
    · exact ih h
    · next x t e =>
      have hr := h.ring
      rw [e, List.length_cons] at hr
      exact ih ⟨h.rng, h.envPos, by show t.length ≤ cap; omega⟩

end Sys2Proof.Machine
end

