-- ==== Sys2Proof/Tests/Slice0.lean ====
section
/-! SUPPORT. Tests/Slice0.lean: small tests of the model, each expected value written out from the encodings of
30_encoding.md or from a row of 95_test_vectors.md (named in the test's comment); and, for each statement with
hypotheses, a concrete state and operands that meet them. -/

namespace Sys2Proof.Tests

open Machine

/-- The operation that a list of bytes is, with nothing left over. -/
def reads (bs : List Byte) : Option Instr :=
  match decode bs with
  | .ok (i, []) => some i
  | .ok (_, _ :: _) | .error _ => none

/-- A state to start from (95_test_vectors.md, S0): reset, with an initial SSP and PC of known value. -/
def start : State :=
  { State.reset with
    cpu := resetCpu 0x8000 0x10000
    video := { counter := 0, fb := [], frameComplete := 0 } }

/-- What a next state holds. -/
def after {α : Type} (o : Host.Outcome State Fault Refusal) (f : State → α) : Option α :=
  match o with
  | .next s => some (f s)
  | .fault _ | .refused _ => none

/-- A small disk: one track of one side, 3 sectors of 2 bytes. -/
def smallDisk : Floppy :=
  { payload := [0x10, 0x11, 0x20, 0x21, 0x30, 0x31], sides := 1, tracks := 1, spt := 3, bps := 2,
    writeProtected := false }

/-- The state with the small disk in drive A, and a WD1772 to start from. -/
def withDisk (w : Wd) : State := { start with disk := some smallDisk, wd := { w with drive := .driveA } }

/-- An image cut off in its third sector. -/
def cutDisk : Floppy := { smallDisk with payload := [0x10, 0x11, 0x20, 0x21, 0x30] }

/-- The sectors of a multiple command of 3 from sector 2: 2, 3, 1. -/
def multiDisk : State := withDisk { resetWd with sector := 2, dmaCount := 3 }

/-! Ill-formed operations are refused by WellFormed, each check by an operation that fails it. -/

/-- A claimed register, the palette, a named register, an address below the I/O page, and an access that touches a
bus-error range are no UNCLAIMED_IO (20_memory.md R89, R90). -/
theorem test_illformed_unclaimed : ∀ i ∈ ([.unclaimedIo 0xFFFA01 .rd8, .unclaimedIo 0xFF8240 .rd16,
    .unclaimedIo 0xFF8260 .rd8, .unclaimedIo 0xFF7FFF .rd8, .unclaimedIo 0xFF88FF .rd16] : List Instr),
    i.wellFormed = false := by decide

/-- A bus-error row at an access that stays clear of its range, or lies in another's (R90). -/
theorem test_illformed_berr : ∀ i ∈ ([.berrSteDmaSound 0xFF8925 .rd8, .berrSteDmaSound 0xFF8A00 .rd8,
    .berrBlitter 0xFF8A3D .rd32, .berrBlitter 0xFF89FF .rd8, .berrSteJoystick 0xFF9223 .rd8,
    .berrSteJoystick 0xFF91FE .rd16, .berrSteDmaSound 0x008900 .rd8] : List Instr), i.wellFormed = false := by decide

/-- A first byte of the length table is not unknown (44_acia_ikbd.md R370). -/
theorem test_illformed_unknown : (Instr.unknownFirstByte 0x16).wellFormed = false := by decide

/-- Frames that are no operation are refused by name (log 1). -/
theorem test_refused_frames : decode [0x04, 0x86] = .error .truncated
    ∧ decode [0x04, 0x86, 0xFF, 5, 0x12] = .error .truncated
    ∧ decode [0x00, 0x80, 0xFE, 1] = .error .notDeviceAddress
    ∧ decode [0x00, 0xFC, 0xFF, 2] = .error .compoundAccess
    ∧ decode [0x00, 0xFC, 0xFF, 7] = .error .badKind
    ∧ decode [0x10, 5, 0] = .error .badSpace
    ∧ decode [0x00, 4, 0] = .error .badLevel := by decide

/-- A bare table word is read by its row's address or byte, its other bytes 0 (log 22). -/
theorem test_table_words : decodeTableWord 24 0xFF8604 = some .fdcDmaDataRd16
    ∧ decodeTableWord 24 0xFFFC00 = some .aciaStatusRd8
    ∧ decodeTableWord 8 0x90 = some .statusInquiry90 := by decide

/-- A table word placed at the reset state is run by the very next step (log 2; B9.1, B11.1, B4.5). -/
theorem test_step_runs_table_words :
    after (step (State.reset.withFetchWord 24 0xFF8606)) (·.bus) = some 0x0001
    ∧ after (step (State.reset.withFetchWord 24 0xFFFC00)) (·.bus) = some 0x02
    ∧ after (step (State.reset.withFetchWord 8 0x05)) (·.bus) = some 29 := by decide

/-! Every row's frame, its bytes written out from the encodings of 30_encoding.md and the frame of log 1. -/

/-- 30_encoding.md R133. -/
theorem test_decode_fdc_dma_registers : ∀ p ∈ ([
    ([0x04, 0x86, 0xFF, 0x02], .fdcDmaDataRd16),
    ([0x04, 0x86, 0xFF, 0x05, 0x12, 0x34], .fdcDmaDataWr16 0x1234),
    ([0x04, 0x86, 0xFF, 0x01], .fdcDmaDataHiRd8),
    ([0x04, 0x86, 0xFF, 0x04, 0x5A], .fdcDmaDataHiWr8 0x5A),
    ([0x05, 0x86, 0xFF, 0x01], .fdcDmaDataLoRd8),
    ([0x05, 0x86, 0xFF, 0x04, 0x5A], .fdcDmaDataLoWr8 0x5A),
    ([0x06, 0x86, 0xFF, 0x02], .dmaStatusRd16),
    ([0x06, 0x86, 0xFF, 0x05, 0x12, 0x34], .dmaModeWr16 0x1234),
    ([0x06, 0x86, 0xFF, 0x01], .dmaStatusHiRd8),
    ([0x06, 0x86, 0xFF, 0x04, 0x5A], .dmaModeHiWr8 0x5A),
    ([0x07, 0x86, 0xFF, 0x01], .dmaStatusLoRd8),
    ([0x07, 0x86, 0xFF, 0x04, 0x5A], .dmaModeLoWr8 0x5A),
    ([0x09, 0x86, 0xFF, 0x01], .dmaAddrHiRd8),
    ([0x09, 0x86, 0xFF, 0x04, 0x5A], .dmaAddrHiWr8 0x5A),
    ([0x0B, 0x86, 0xFF, 0x01], .dmaAddrMidRd8),
    ([0x0B, 0x86, 0xFF, 0x04, 0x5A], .dmaAddrMidWr8 0x5A),
    ([0x0D, 0x86, 0xFF, 0x01], .dmaAddrLoRd8),
    ([0x0D, 0x86, 0xFF, 0x04, 0x5A], .dmaAddrLoWr8 0x5A)] : List (List Byte × Instr)),
    reads p.1 = some p.2 := by decide

/-- 30_encoding.md R134. -/
theorem test_decode_ym_accesses : ∀ p ∈ ([
    ([0x00, 0x88, 0xFF, 0x04, 0x5A], .ymSelectWr8 0x5A),
    ([0x00, 0x88, 0xFF, 0x01], .ymDataRd8),
    ([0x02, 0x88, 0xFF, 0x04, 0x5A], .ymDataWr8 0x5A),
    ([0x02, 0x88, 0xFF, 0x01], .ymFf8802Rd8)] : List (List Byte × Instr)),
    reads p.1 = some p.2 := by decide

/-- 30_encoding.md R136. -/
theorem test_decode_mfp_registers_1 : ∀ p ∈ ([
    ([0x01, 0xFA, 0xFF, 0x01], .mfpGpipRd8),
    ([0x01, 0xFA, 0xFF, 0x04, 0x5A], .mfpGpipWr8 0x5A),
    ([0x03, 0xFA, 0xFF, 0x01], .mfpAerRd8),
    ([0x03, 0xFA, 0xFF, 0x04, 0x5A], .mfpAerWr8 0x5A),
    ([0x05, 0xFA, 0xFF, 0x01], .mfpDdrRd8),
    ([0x05, 0xFA, 0xFF, 0x04, 0x5A], .mfpDdrWr8 0x5A),
    ([0x07, 0xFA, 0xFF, 0x01], .mfpIeraRd8),
    ([0x07, 0xFA, 0xFF, 0x04, 0x5A], .mfpIeraWr8 0x5A),
    ([0x09, 0xFA, 0xFF, 0x01], .mfpIerbRd8),
    ([0x09, 0xFA, 0xFF, 0x04, 0x5A], .mfpIerbWr8 0x5A),
    ([0x0B, 0xFA, 0xFF, 0x01], .mfpIpraRd8),
    ([0x0B, 0xFA, 0xFF, 0x04, 0x5A], .mfpIpraWr8 0x5A),
    ([0x0D, 0xFA, 0xFF, 0x01], .mfpIprbRd8),
    ([0x0D, 0xFA, 0xFF, 0x04, 0x5A], .mfpIprbWr8 0x5A),
    ([0x0F, 0xFA, 0xFF, 0x01], .mfpIsraRd8),
    ([0x0F, 0xFA, 0xFF, 0x04, 0x5A], .mfpIsraWr8 0x5A),
    ([0x11, 0xFA, 0xFF, 0x01], .mfpIsrbRd8),
    ([0x11, 0xFA, 0xFF, 0x04, 0x5A], .mfpIsrbWr8 0x5A),
    ([0x13, 0xFA, 0xFF, 0x01], .mfpImraRd8),
    ([0x13, 0xFA, 0xFF, 0x04, 0x5A], .mfpImraWr8 0x5A)] : List (List Byte × Instr)),
    reads p.1 = some p.2 := by decide

/-- 30_encoding.md R136. -/
theorem test_decode_mfp_registers_2 : ∀ p ∈ ([
    ([0x15, 0xFA, 0xFF, 0x01], .mfpImrbRd8),
    ([0x15, 0xFA, 0xFF, 0x04, 0x5A], .mfpImrbWr8 0x5A),
    ([0x17, 0xFA, 0xFF, 0x01], .mfpVrRd8),
    ([0x17, 0xFA, 0xFF, 0x04, 0x5A], .mfpVrWr8 0x5A),
    ([0x19, 0xFA, 0xFF, 0x01], .mfpTacrRd8),
    ([0x19, 0xFA, 0xFF, 0x04, 0x5A], .mfpTacrWr8 0x5A),
    ([0x1B, 0xFA, 0xFF, 0x01], .mfpTbcrRd8),
    ([0x1B, 0xFA, 0xFF, 0x04, 0x5A], .mfpTbcrWr8 0x5A),
    ([0x1D, 0xFA, 0xFF, 0x01], .mfpTcdcrRd8),
    ([0x1D, 0xFA, 0xFF, 0x04, 0x5A], .mfpTcdcrWr8 0x5A),
    ([0x1F, 0xFA, 0xFF, 0x01], .mfpTadrRd8),
    ([0x1F, 0xFA, 0xFF, 0x04, 0x5A], .mfpTadrWr8 0x5A),
    ([0x21, 0xFA, 0xFF, 0x01], .mfpTbdrRd8),
    ([0x21, 0xFA, 0xFF, 0x04, 0x5A], .mfpTbdrWr8 0x5A),
    ([0x23, 0xFA, 0xFF, 0x01], .mfpTcdrRd8),
    ([0x23, 0xFA, 0xFF, 0x04, 0x5A], .mfpTcdrWr8 0x5A),
    ([0x25, 0xFA, 0xFF, 0x01], .mfpTddrRd8),
    ([0x25, 0xFA, 0xFF, 0x04, 0x5A], .mfpTddrWr8 0x5A)] : List (List Byte × Instr)),
    reads p.1 = some p.2 := by decide

/-- 30_encoding.md R137. -/
theorem test_decode_acia_registers : ∀ p ∈ ([
    ([0x00, 0xFC, 0xFF, 0x01], .aciaStatusRd8),
    ([0x00, 0xFC, 0xFF, 0x04, 0x5A], .aciaControlWr8 0x5A),
    ([0x02, 0xFC, 0xFF, 0x01], .aciaDataRd8),
    ([0x02, 0xFC, 0xFF, 0x04, 0x5A], .aciaDataWr8 0x5A)] : List (List Byte × Instr)),
    reads p.1 = some p.2 := by decide

/-- 30_encoding.md R132, R135. -/
theorem test_decode_plain_and_bus_error_rows : ∀ p ∈ ([
    ([0x01, 0x80, 0xFF, 0x04, 0x5A], .mmuConfig (.wr8 0x5A)),
    ([0x01, 0x82, 0xFF, 0x04, 0x5A], .videoBaseHi (.wr8 0x5A)),
    ([0x03, 0x82, 0xFF, 0x04, 0x5A], .videoBaseMid (.wr8 0x5A)),
    ([0x05, 0x82, 0xFF, 0x04, 0x5A], .videoCounterHi (.wr8 0x5A)),
    ([0x07, 0x82, 0xFF, 0x04, 0x5A], .videoCounterMid (.wr8 0x5A)),
    ([0x09, 0x82, 0xFF, 0x04, 0x5A], .videoCounterLo (.wr8 0x5A)),
    ([0x0A, 0x82, 0xFF, 0x04, 0x5A], .syncMode (.wr8 0x5A)),
    ([0x5E, 0x82, 0xFF, 0x05, 0x07, 0x21], .palette 0x1E (.wr16 0x0721)),
    ([0x60, 0x82, 0xFF, 0x04, 0x5A], .resolution (.wr8 0x5A)),
    ([0x23, 0x81, 0xFF, 0x04, 0x5A], .unclaimedIo 0xFF8123 (.wr8 0x5A)),
    ([0xFE, 0x88, 0xFF, 0x03], .berrSteDmaSound 0xFF88FE .rd32),
    ([0x3C, 0x8A, 0xFF, 0x04, 0x5A], .berrBlitter 0xFF8A3C (.wr8 0x5A)),
    ([0x22, 0x92, 0xFF, 0x06, 0x01, 0x02, 0x03, 0x04], .berrSteJoystick 0xFF9222 (.wr32 0x01020304))] : List (List Byte × Instr)),
    reads p.1 = some p.2 := by decide

/-- 30_encoding.md R144. -/
theorem test_decode_fdc_commands : ∀ p ∈ ([
    ([0x06, 0x01, 0x00], .fdcRestore 0x6),
    ([0x16, 0x01, 0x00], .fdcSeek 0x6),
    ([0x26, 0x01, 0x00], .fdcStep 0x6),
    ([0x36, 0x01, 0x00], .fdcStepU 0x6),
    ([0x46, 0x01, 0x00], .fdcStepIn 0x6),
    ([0x56, 0x01, 0x00], .fdcStepInU 0x6),
    ([0x66, 0x01, 0x00], .fdcStepOut 0x6),
    ([0x76, 0x01, 0x00], .fdcStepOutU 0x6),
    ([0x86, 0x01, 0x00], .fdcReadSector 0x6),
    ([0x96, 0x01, 0x00], .fdcReadSectorMulti 0x6),
    ([0xA6, 0x01, 0x00], .fdcWriteSector 0x6),
    ([0xB6, 0x01, 0x00], .fdcWriteSectorMulti 0x6),
    ([0xC6, 0x01, 0x00], .fdcReadAddress 0x6),
    ([0xD6, 0x01, 0x00], .fdcForceInterrupt 0x6),
    ([0xE6, 0x01, 0x00], .fdcReadTrack 0x6),
    ([0xF6, 0x01, 0x00], .fdcWriteTrack 0x6)] : List (List Byte × Instr)),
    reads p.1 = some p.2 := by decide

/-- 30_encoding.md R145; 44_acia_ikbd.md R378. -/
theorem test_decode_ikbd_commands_1 : ∀ p ∈ ([
    ([0x07, 0x02, 0x00, 0x5A], .setMouseButtonAction 0x5A),
    ([0x08, 0x02, 0x00], .setRelativeMouse),
    ([0x09, 0x02, 0x00, 0x5A, 0x81, 0x3C, 0x07], .setAbsoluteMouse 0x5A 0x81 0x3C 0x07),
    ([0x0A, 0x02, 0x00, 0x5A, 0x81], .setMouseKeycodeMode 0x5A 0x81),
    ([0x0B, 0x02, 0x00, 0x5A, 0x81], .setMouseThreshold 0x5A 0x81),
    ([0x0C, 0x02, 0x00, 0x5A, 0x81], .setMouseScale 0x5A 0x81),
    ([0x0D, 0x02, 0x00], .interrogateMousePosition),
    ([0x0E, 0x02, 0x00, 0x5A, 0x81, 0x3C, 0x07, 0xE4], .loadMousePosition 0x5A 0x81 0x3C 0x07 0xE4),
    ([0x0F, 0x02, 0x00], .setYAtBottom),
    ([0x10, 0x02, 0x00], .setYAtTop),
    ([0x11, 0x02, 0x00], .resume),
    ([0x12, 0x02, 0x00], .disableMouse),
    ([0x13, 0x02, 0x00], .pauseOutput),
    ([0x14, 0x02, 0x00], .setJoystickEventReporting),
    ([0x15, 0x02, 0x00], .setJoystickInterrogationMode),
    ([0x16, 0x02, 0x00], .joystickInterrogate),
    ([0x17, 0x02, 0x00, 0x5A], .setJoystickMonitoring 0x5A),
    ([0x18, 0x02, 0x00], .setFireButtonMonitoring),
    ([0x19, 0x02, 0x00, 0x5A, 0x81, 0x3C, 0x07, 0xE4, 0x99], .setJoystickKeycodeMode 0x5A 0x81 0x3C 0x07 0xE4 0x99),
    ([0x1A, 0x02, 0x00], .disableJoysticks)] : List (List Byte × Instr)),
    reads p.1 = some p.2 := by decide

/-- 30_encoding.md R145; 44_acia_ikbd.md R378. -/
theorem test_decode_ikbd_commands_2 : ∀ p ∈ ([
    ([0x1B, 0x02, 0x00, 0x5A, 0x81, 0x3C, 0x07, 0xE4, 0x99], .timeOfDayClockSet 0x5A 0x81 0x3C 0x07 0xE4 0x99),
    ([0x1C, 0x02, 0x00], .interrogateTimeOfDayClock),
    ([0x20, 0x02, 0x00, 0x5A, 0x81, 0x3C], .memoryLoad 0x5A 0x81 0x3C),
    ([0x21, 0x02, 0x00, 0x5A, 0x81], .memoryRead 0x5A 0x81),
    ([0x22, 0x02, 0x00, 0x5A, 0x81], .controllerExecute 0x5A 0x81),
    ([0x80, 0x02, 0x00, 0x5A], .ikbdReset 0x5A),
    ([0x87, 0x02, 0x00], .statusInquiry87),
    ([0x88, 0x02, 0x00], .statusInquiry88),
    ([0x89, 0x02, 0x00], .statusInquiry89),
    ([0x8A, 0x02, 0x00], .statusInquiry8A),
    ([0x8B, 0x02, 0x00], .statusInquiry8B),
    ([0x8C, 0x02, 0x00], .statusInquiry8C),
    ([0x8F, 0x02, 0x00], .statusInquiry8F),
    ([0x90, 0x02, 0x00], .statusInquiry90),
    ([0x92, 0x02, 0x00], .statusInquiry92),
    ([0x94, 0x02, 0x00], .statusInquiry94),
    ([0x95, 0x02, 0x00], .statusInquiry95),
    ([0x99, 0x02, 0x00], .statusInquiry99),
    ([0x9A, 0x02, 0x00], .statusInquiry9A),
    ([0x01, 0x02, 0x00], .unknownFirstByte 0x01)] : List (List Byte × Instr)),
    reads p.1 = some p.2 := by decide

/-- 30_encoding.md R147. -/
theorem test_decode_ym_register_writes : ∀ p ∈ ([
    ([0x00, 0x03, 0x00, 0x5A], .ymToneAFine 0x5A),
    ([0x01, 0x03, 0x00, 0x5A], .ymToneACoarse 0x5A),
    ([0x02, 0x03, 0x00, 0x5A], .ymToneBFine 0x5A),
    ([0x03, 0x03, 0x00, 0x5A], .ymToneBCoarse 0x5A),
    ([0x04, 0x03, 0x00, 0x5A], .ymToneCFine 0x5A),
    ([0x05, 0x03, 0x00, 0x5A], .ymToneCCoarse 0x5A),
    ([0x06, 0x03, 0x00, 0x5A], .ymNoisePeriod 0x5A),
    ([0x07, 0x03, 0x00, 0x5A], .ymMixerEnable 0x5A),
    ([0x08, 0x03, 0x00, 0x5A], .ymLevelA 0x5A),
    ([0x09, 0x03, 0x00, 0x5A], .ymLevelB 0x5A),
    ([0x0A, 0x03, 0x00, 0x5A], .ymLevelC 0x5A),
    ([0x0B, 0x03, 0x00, 0x5A], .ymEnvPeriodFine 0x5A),
    ([0x0C, 0x03, 0x00, 0x5A], .ymEnvPeriodCoarse 0x5A),
    ([0x0D, 0x03, 0x00, 0x5A], .ymEnvShape 0x5A),
    ([0x0E, 0x03, 0x00, 0x5A], .ymPortA 0x5A),
    ([0x0F, 0x03, 0x00, 0x5A], .ymPortB 0x5A)] : List (List Byte × Instr)),
    reads p.1 = some p.2 := by decide

/-- 30_encoding.md R148. -/
theorem test_decode_acknowledges : ∀ p ∈ ([
    ([0x01, 0x04, 0x00], .iackL1),
    ([0x02, 0x04, 0x00], .iackL2),
    ([0x03, 0x04, 0x00], .iackL3),
    ([0x04, 0x04, 0x00], .iackL4),
    ([0x05, 0x04, 0x00], .iackL5),
    ([0x06, 0x04, 0x00], .iackL6),
    ([0x07, 0x04, 0x00], .iackL7)] : List (List Byte × Instr)),
    reads p.1 = some p.2 := by decide

/-! FDC and DMA (95_test_vectors.md B9). -/

/-- B9.1: the DMA status after reset. -/
theorem test_dma_status_reset : after (exec .dmaStatusRd16 start) (·.bus) = some 0x0001 := by decide

/-- B9.2: the low address byte loses bit 0. -/
theorem test_dma_addr_lo : after (exec (.dmaAddrLoWr8 0x45) { start with wd := { resetWd with dmaAddr := 0x012300 } })
    (·.wd.dmaAddr) = some 0x012344 := by decide

/-- B9.2: the high and middle bytes, read back. -/
theorem test_dma_addr_reads : ∀ p ∈ ([(.dmaAddrHiRd8, 0x01), (.dmaAddrMidRd8, 0x23), (.dmaAddrLoRd8, 0x44)]
    : List (Instr × Word)), after (exec p.1 { start with wd := { resetWd with dmaAddr := 0x012344 } }) (·.bus)
      = some p.2 := by decide

/-- B9.3: a direction change clears the count and the error. -/
theorem test_dma_mode_toggle : after
    (exec (.dmaModeWr16 0x0190) { start with wd := { resetWd with dmaCount := 5, dmaError := true } })
    (fun t => (t.wd.dmaCount, t.wd.dmaError, t.wd.prevDir)) = some (0, false, true) := by decide

/-- B9.4: the same direction keeps the count. -/
theorem test_dma_mode_keep : after (exec (.dmaModeWr16 0x0090) { start with wd := { resetWd with dmaCount := 5 } })
    (·.wd.dmaCount) = some 5 := by decide

/-- B9.6: bit 4 of the mode wins over bit 3. -/
theorem test_fdc_count_over_hdc : after
    (exec (.fdcDmaDataWr16 0x0007) { start with wd := { resetWd with dmaMode := 0x0098 } }) (·.wd.dmaCount)
    = some 7 := by decide

/-- B9.7: the hard-disk select reads 0xFF. -/
theorem test_fdc_hdc_read : after (exec .fdcDmaDataRd16 { start with wd := { resetWd with dmaMode := 0x0088 } }) (·.bus)
    = some 0x00FF := by decide

/-- B9.9: the byte at 0xFF8605 reaches the sector register, the one at 0xFF8604 nothing. -/
theorem test_fdc_sector_bytes :
    after (exec (.fdcDmaDataLoWr8 0x03) { start with wd := { resetWd with dmaMode := 0x0084 } }) (·.wd.sector) = some 3
    ∧ after (exec (.fdcDmaDataHiWr8 0x09) { start with wd := { resetWd with dmaMode := 0x0084 } }) (·.wd.sector)
      = some 0 := by decide

/-- B9.35: a status read releases GPIP5 and leaves IPRB alone. -/
theorem test_fdc_status_read : after (exec .fdcDmaDataRd16
    { start with wd := { resetWd with status := 0x10 }, mfp := { resetMfp with gpip := 0xDF, ierb := 0x80 } })
    (fun t => (t.bus, t.mfp.gpip, t.mfp.iprb)) = some (0x10, 0xFF, 0) := by decide

/-- B9.12: RESTORE with no disk. -/
theorem test_restore_no_disk : after (exec (.fdcRestore 0) { start with wd := { resetWd with head := 40, track := 9 } })
    (fun t => (t.wd.head, t.wd.track, t.wd.status, t.mfp.gpip)) = some (0, 0, 0xA4, 0xDF) := by decide

/-- B9.13: RESTORE with a write-protected disk. -/
theorem test_restore_protected : after (exec (.fdcRestore 0)
    { withDisk resetWd with disk := some { smallDisk with writeProtected := true } }) (·.wd.status) = some 0xE6 := by
  decide

/-- B9.14: SEEK stops the head at the last track, but not the track register. The vector's status 0xA0 is against
43_wd1772_dma.md R316, which sets INDEX with a disk in drive A; the rule wins (95_test_vectors.md). -/
theorem test_seek_past_end : after (exec (.fdcSeek 0)
    { withDisk { resetWd with data := 90 } with disk := some { smallDisk with tracks := 80 } })
    (fun t => (t.wd.head, t.wd.track, t.wd.status)) = some (79, 90, 0xA2) := by decide

/-- B9.15: SEEK with no disk. -/
theorem test_seek_no_disk : after (exec (.fdcSeek 0) { start with wd := { resetWd with data := 200 } })
    (fun t => (t.wd.head, t.wd.track, t.wd.status)) = some (200, 200, 0xA0) := by decide

/-- B9.16, B9.17: STEP with and without the update flag. -/
theorem test_step : after (exec (.fdcStepU 0) start) (fun t => (t.wd.head, t.wd.track)) = some (1, 1)
    ∧ after (exec (.fdcStep 0) start) (fun t => (t.wd.head, t.wd.track)) = some (1, 0) := by decide

/-- B9.18: STEP-IN at the last track. -/
theorem test_step_in_limit : after (exec (.fdcStepInU 0)
    { withDisk { resetWd with head := 79, track := 5 } with disk := some { smallDisk with tracks := 80 } })
    (fun t => (t.wd.head, t.wd.track)) = some (79, 6) := by decide

/-- B9.20: STEP-OUT at track 0. -/
theorem test_step_out_zero : after (exec (.fdcStepOutU 0) start)
    (fun t => (t.wd.head, t.wd.track, t.wd.status, t.wd.stepDir)) = some (0, 0xFF, 0xA4, .outward) := by decide

/-- B9.22: with a count of 0 one sector still moves, and the count stays 0 (the sector here has 2 bytes). -/
theorem test_read_sector : after (exec (.fdcReadSector 0) (withDisk { resetWd with sector := 2, dmaAddr := 0x10000 }))
    (fun t => (t.mem, t.wd.dmaAddr, t.wd.dmaCount, t.wd.status, t.mfp.gpip))
    = some ([(0x10000, 0x20), (0x10001, 0x21)], 0x10002, 0, 0x00, 0xDF) := by decide

/-- B9.25: sector 0 is outside the image. -/
theorem test_read_sector_zero : after (exec (.fdcReadSector 0) (withDisk resetWd))
    (fun t => (t.mem, t.wd.status, t.wd.dmaError)) = some ([], 0x10, true) := by decide

/-- B9.23: the sector number wraps to 1 within the track. -/
theorem test_read_multi_wraps : after
    (exec (.fdcReadSectorMulti 0) (withDisk { resetWd with sector := 2, dmaCount := 3, dmaAddr := 0x10000 }))
    (fun t => (t.mem.map Prod.snd, t.wd.sector, t.wd.dmaCount, t.wd.dmaAddr))
    = some ([0x20, 0x21, 0x30, 0x31, 0x10, 0x11], 2, 0, 0x10006) := by decide

/-- B9.24: a count of 0 moves nothing. -/
theorem test_read_multi_none : after (exec (.fdcReadSectorMulti 0) (withDisk { resetWd with sector := 1 }))
    (fun t => (t.mem, t.wd.sector, t.wd.status)) = some ([], 1, 0x00) := by decide

/-- B9.33: WRITE SECTOR takes the bytes of RAM. -/
theorem test_write_sector : after (exec (.fdcWriteSector 0)
    { withDisk { resetWd with sector := 2, dmaAddr := 0x20000 } with mem := [(0x20000, 0xAA), (0x20001, 0xBB)] })
    (fun t => (t.disk.map (·.payload), t.wd.dmaAddr)) = some (some [0x10, 0x11, 0xAA, 0xBB, 0x30, 0x31], 0x20002) := by
  decide

/-- B9.32: a protected disk. -/
theorem test_write_protected : after (exec (.fdcWriteSector 0)
    { withDisk { resetWd with sector := 1 } with disk := some { smallDisk with writeProtected := true } })
    (fun t => (t.wd.status, t.wd.dmaError)) = some (0x40, true) := by decide

/-- R321 and B9.23: WRITE SECTOR multiple wraps as the read does; beyond RAM the bytes read 0xFF (20_memory.md R96). -/
theorem test_write_multi : after (exec (.fdcWriteSectorMulti 0)
    { withDisk { resetWd with sector := 3, dmaCount := 2, dmaAddr := 0x7FFFE } with mem := [(0x7FFFE, 1), (0x7FFFF, 2)] })
    (fun t => (t.disk.map (·.payload), t.wd.sector)) = some (some [0xFF, 0xFF, 0x20, 0x21, 1, 2], 2) := by decide

/-- B9.34: READ ADDRESS. -/
theorem test_read_address : after
    (exec (.fdcReadAddress 0) (withDisk { resetWd with head := 12, side := 1, sector := 4, dmaAddr := 0x30000, dmaCount := 2 }))
    (fun t => (t.mem.map Prod.snd, t.wd.dmaAddr, t.wd.dmaCount)) = some ([0x0C, 1, 4, 2, 0, 0], 0x30006, 2) := by decide

/-- B9.35: FORCE INTERRUPT keeps the status and pulls no interrupt. -/
theorem test_force_interrupt : after (exec (.fdcForceInterrupt 0)
    { start with wd := { resetWd with status := 0x10 }, mfp := { resetMfp with gpip := 0xDF, ierb := 0x80 } })
    (fun t => (t.wd.status, t.mfp.gpip, t.mfp.iprb)) = some (0x10, 0xFF, 0) := by decide

/-- B9.38: the track commands under `refuse`. -/
theorem test_track_commands_refuse : exec (.fdcReadTrack 0)
      { start with params := { resetParams with trackCmds := .refuse } } = .refused .fdcTrackCommand
    ∧ exec (.fdcWriteTrack 0) { start with params := { resetParams with trackCmds := .refuse } }
      = .refused .fdcTrackCommand := ⟨rfl, rfl⟩

/-- R324: under `havoc` READ TRACK completes with its interrupt. -/
theorem test_read_track_havoc : after (exec (.fdcReadTrack 0) { start with mfp := { resetMfp with ierb := 0x80 } })
    (fun t => (t.mfp.gpip, t.mfp.iprb)) = some (0xDF, 0x80) := by decide

/-! YM2149 (B8). -/

/-- B8.1: only four bits select. -/
theorem test_ym_select : after (exec (.ymSelectWr8 0x1F) start) (·.ym.sel) = some 15 := by decide

/-- B8.2: register 7 after reset. -/
theorem test_ym_read : after (exec .ymDataRd8 { start with ym := { resetYm with sel := 7 } }) (·.bus) = some 0xFF := by
  decide

/-- B8.4: a write of register 13 restarts the envelope. -/
theorem test_ym_shape : after
    (exec (.ymDataWr8 0x0A) { start with ym := { resetYm with sel := 13, envPos := 40, envCnt := 9 } })
    (fun t => (t.ym.envPos, t.ym.envCnt, ymReg t.ym 13)) = some (0, 0, 0x0A) := by decide

/-- B8.5: port A selects the drive and the side. -/
theorem test_ym_port_a : ([0x05, 0x04, 0x00, 0x02, 0x06, 0x07] : List Byte).map
      (fun v => after (exec (.ymPortA v) start) fun t => (t.wd.drive, t.wd.side))
    = [some (.driveA, 1), some (.driveA, 0), some (.driveA, 0), some (.driveB, 0), some (.noDrive, 0),
       some (.noDrive, 1)] := by decide

/-- B8.6: the side under `YM_SIDE_INVERT`. -/
theorem test_ym_side_invert : after
    (exec (.ymPortA 0x05) { start with params := { resetParams with ymSideInvert := true } })
    (fun t => (t.wd.drive, t.wd.side)) = some (.driveA, 0) := by decide

/-- B8.3 as a register row: the register is selected, then written. -/
theorem test_ym_level_a : after (exec (.ymLevelA 0x0F) start) (fun t => (t.ym.sel, ymReg t.ym 8)) = some (8, 0x0F) := by
  decide

/-- B8.11: the LFSR's first states. -/
theorem test_lfsr : ((List.range 15).map fun n => (n.repeat (fun r => (lfsrStep r).1) 1))
    = [1, 0x12000, 0x09000, 0x04800, 0x02400, 0x01200, 0x00900, 0x00480, 0x00240, 0x00120, 0x00090, 0x00048, 0x00024,
       0x00012, 0x00009] := by decide

/-- B8.14: the envelope loops to 32, or to 64 under the other choice. -/
theorem test_envelope_loop :
    (tickEnv resetParams { resetYm with reg := resetYm.reg.set 11 1, envPos := 95, envCnt := 1 }).envPos = 32
    ∧ (tickEnv { resetParams with envLoop := .from64 }
        { resetYm with reg := resetYm.reg.set 11 1, envPos := 95, envCnt := 1 }).envPos = 64 := by decide

/-- B8.18: the resampling ratios. -/
theorem test_resample_ratio : [44100, 48000, 250000, 22050, 8000].map resampleRatio
    = [371519, 341333, 65536, 743038, 2048000] := by decide

/-! MFP (B5, B6, B7). -/

/-- B5.1: what reset leaves. -/
theorem test_mfp_reset_reads : ∀ p ∈ ([(.mfpGpipRd8, 0xFF), (.mfpAerRd8, 0x00), (.mfpVrRd8, 0x40)]
    : List (Instr × Word)), after (exec p.1 start) (·.bus) = some p.2 := by decide

/-- B5.2, B5.3: a GPIP write moves output lines only. -/
theorem test_mfp_gpip_write : after (exec (.mfpGpipWr8 0x00) start) (·.mfp.gpip) = some 0xFF
    ∧ after (exec (.mfpGpipWr8 0x00) { start with mfp := { resetMfp with ddr := 0x01 } }) (·.mfp.gpip) = some 0xFE := by
  decide

/-- B5.4: disabling a channel drops its pending bit, and the line. -/
theorem test_mfp_ierb_gates : after (exec (.mfpIerbWr8 0x00)
    { start with mfp := { resetMfp with iprb := 0x20, ierb := 0x20, imrb := 0x20 }, arb := { resetArb with mfp := true } })
    (fun t => (t.mfp.iprb, t.arb.mfp, t.cpu.ipl)) = some (0, false, 0) := by decide

/-- B5.5, B5.6: a pending bit is only ever cleared by a write. -/
theorem test_mfp_ipr_write : after (exec (.mfpIpraWr8 0xDF) { start with mfp := { resetMfp with ipra := 0x21 } }) (·.mfp.ipra)
      = some 0x01
    ∧ after (exec (.mfpIprbWr8 0xFF) start) (·.mfp.iprb) = some 0x00 := by decide

/-- B5.7: the in-service bit. -/
theorem test_mfp_isrb_write : after (exec (.mfpIsrbWr8 0xDF) { start with mfp := { resetMfp with isrb := 0x20 } })
    (·.mfp.isrb) = some 0x00 := by decide

/-- B5.8: unmasking a pending channel raises the line. -/
theorem test_mfp_imrb_raises : after
    (exec (.mfpImrbWr8 0x20) { start with mfp := { resetMfp with iprb := 0x20, ierb := 0x20 } })
    (fun t => (t.arb.mfp, t.cpu.ipl)) = some (true, 6) := by decide

/-- B5.9, B5.10: leaving software EOI clears the in-service bits. -/
theorem test_mfp_vr_write : after
      (exec (.mfpVrWr8 0x40) { start with mfp := { resetMfp with vr := 0x48, isra := 0x20, isrb := 0x10 } })
      (fun t => (t.mfp.isra, t.mfp.isrb)) = some (0, 0)
    ∧ after (exec (.mfpVrWr8 0x48) { start with mfp := { resetMfp with isra := 0x20 } }) (·.mfp.isra) = some 0x20 := by
  decide

/-- B5.12: a data byte of 0 loads 256, and reads back 0. -/
theorem test_mfp_tddr_zero : after (exec (.mfpTddrWr8 0x00) { start with mfp := { resetMfp with timerD := ⟨9, 0⟩ } })
      (·.mfp.timerD.cnt) = some 256
    ∧ after (exec .mfpTddrRd8 start) (·.bus) = some 0x00 := by decide

/-- B5.13: a running timer keeps its counter. -/
theorem test_mfp_tddr_running : after
    (exec (.mfpTddrWr8 50) { start with mfp := { resetMfp with tcdcr := 0x07, timerD := ⟨100, 0⟩ } })
    (fun t => (t.mfp.tddr, t.mfp.timerD.cnt)) = some (50, 100) := by decide

/-- B5.14: TCDCR sets both modes. -/
theorem test_mfp_tcdcr : after (exec (.mfpTcdcrWr8 0x51) start)
    (fun t => (delayDivisor (timerMode t.mfp .c), delayDivisor (timerMode t.mfp .d))) = some (some 64, some 4) := by decide

/-- B6.1: the accumulator over four calls. -/
theorem test_timer_accumulator : (updateTimers 448 start).mfp.acc = 5004800
    ∧ (updateTimers 64 (updateTimers 448 start)).mfp.acc = 2291200 := by decide

/-- B6.3: 34 underflows in one call, one pending bit. -/
theorem test_timer_underflows : (tickDelay .a 137 { start with
      mfp := { resetMfp with tacr := 1, tadr := 1, timerA := ⟨1, 0⟩, iera := 0x20 } }).mfp.timerA = ⟨1, 1⟩
    ∧ (tickDelay .a 137 { start with
      mfp := { resetMfp with tacr := 1, tadr := 1, timerA := ⟨1, 0⟩, iera := 0x20 } }).mfp.ipra = 0x20 := by decide

/-- B7.4: a rising edge under AER. -/
theorem test_gpip_rising : (setGpip .fdc true { start with
    mfp := { resetMfp with aer := 0x20, gpip := 0xDF, ierb := 0x80 } }).mfp.iprb = 0x80 := by decide

/-- The MFP with the given pending, enabled and unmasked channels, and a VR. -/
def pendingMfp (a b vr : Byte) : State :=
  { start with mfp := { resetMfp with ipra := a, iera := a, imra := a, iprb := b, ierb := b, imrb := b, vr := vr } }

/-- B7.5: Timer C under software EOI. -/
theorem test_iack_timer_c : after (exec .iackL6 (pendingMfp 0 0x20 0x48)) (fun t => (t.bus, t.mfp.iprb, t.mfp.isrb))
    = some (0x45, 0x00, 0x20) := by decide

/-- B7.6..B7.9, B7.13: the vectors of the channels. -/
theorem test_iack_vectors : [pendingMfp 0 0x80 0x48, pendingMfp 0 0x40 0x48, pendingMfp 0 0x10 0x48,
      pendingMfp 0x20 0x10 0x48, pendingMfp 0x01 0 0x50].map (fun s => after (exec .iackL6 s) (·.bus))
    = [some 0x47, some 0x46, some 0x44, some 0x4D, some 0x58] := by decide

/-- B4.2, B4.5: the autovectors. -/
theorem test_iack_auto : after (exec .iackL4 { start with arb := ⟨true, true, false⟩ }) (fun t => (t.bus, t.cpu.ipl))
      = some (28, 2)
    ∧ ([.iackL5, .iackL1, .iackL7, .iackL3, .iackL2] : List Instr).map (fun i => after (exec i start) (·.bus))
      = [some 29, some 25, some 31, some 27, some 26] := by decide

/-! ACIA and IKBD (B11, B12). -/

/-- B11.2: a byte is latched. -/
theorem test_acia_sync : (aciaSync 512 { start with acia := { resetAcia with queue := [0x1E] } }).acia
    = { resetAcia with latch := 0x1E, hasLatched := true, status := 0x83, wait := 10240 } := by decide

/-- B11.3: the data read. -/
theorem test_acia_read : after (exec .aciaDataRd8 { start with
      acia := { resetAcia with latch := 0x1E, hasLatched := true, status := 0x83 }, mfp := { resetMfp with gpip := 0xEF } })
    (fun t => (t.bus, t.acia.status, t.mfp.gpip)) = some (0x1E, 0x02, 0xFF) := by decide

/-- B11.8, B11.9: master reset, and another control byte. -/
theorem test_acia_control : after (exec (.aciaControlWr8 0x03)
      { start with acia := { resetAcia with latch := 5, hasLatched := true, status := 0x83, wait := 7, queue := [1] } })
      (·.acia) = some { resetAcia with control := 0x03, queue := [1] }
    ∧ after (exec (.aciaControlWr8 0x96) start) (·.acia) = some { resetAcia with control := 0x96 } := by decide

/-- B12.1, B12.9, B12.12, B12.15: what a list of bytes written to the ACIA leaves. -/
theorem test_ikbd_bytes :
    after (writeAcia [0x80, 0x01] start) (fun t => (t.acia.queue, t.ikbd.mouseOn, t.ikbd.joyOn))
      = some ([0xF0, 0xF1], true, true)
    ∧ after (writeAcia [0x16] { start with ikbd := { resetIkbd with joy := 0x81 } }) (·.acia.queue)
      = some [0xFD, 0x00, 0x81]
    ∧ after (writeAcia [0x01, 0x08] start) (·.ikbd.mouseOn) = some true
    ∧ after (writeAcia [0x80] start) (·.ikbd.cmd) = some [0x80] := by decide

/-- B12.3..B12.10: the commands as rows. -/
theorem test_ikbd_rows : after (exec .setRelativeMouse start) (·.ikbd.mouseOn) = some true
    ∧ after (exec .disableMouse { start with ikbd := { resetIkbd with mouseOn := true } }) (·.ikbd.mouseOn) = some false
    ∧ after (exec .setJoystickEventReporting start) (fun t => (t.acia.queue, t.ikbd.joyOn)) = some ([0xFF, 0x00], true)
    ∧ after (exec .interrogateTimeOfDayClock start) (·.acia.queue) = some [0xFC, 0, 0, 0, 0, 0, 0]
    ∧ after (exec (.ikbdReset 0x02) start) (·.acia.queue) = some [] := by decide

/-- B12.16..B12.18: mouse packets. -/
theorem test_mouse_packets : ([(5, -300), (1, -1), (-3, 400)] : List (Int × Int)).map
      (fun m => (hostMouseMove m.1 m.2 { start with ikbd := { resetIkbd with mouseOn := true } }).acia.queue)
    = [[0xF8, 0x02, 0x81], [0xF8, 0x00, 0x00], [0xF8, 0xFF, 0x7F]] := by decide

/-- B12.24: joystick packets. -/
theorem test_joystick_packets : (hostJoystick .right true (hostJoystick .up true
    { start with ikbd := { resetIkbd with joyOn := true } })).acia.queue = [0xFF, 0x01, 0xFF, 0x09] := by decide

/-! Plain storage, bus errors, and the bus (B1, B3). -/

/-- B1.12, B1.14: plain storage keeps what is written. -/
theorem test_plain_write : after (exec (.unclaimedIo 0xFF8123 (.wr8 0x5A)) start) (·.mem) = some [(0xFF8123, 0x5A)]
    ∧ after (exec (.mmuConfig .rd8) { start with mem := [(0xFF8001, 0x0A)] }) (·.bus) = some 0x0A := by decide

/-- B1.15: a word read at the YM's select register. -/
theorem test_ym_word_read : after (busAccess 0xFF8800 .rd16 { start with ym := { resetYm with sel := 7 } }) (·.bus)
    = some 0xFF00 := by decide

/-- B2.5: a word write at an odd address reaches TADR and the mirror byte after it. -/
theorem test_odd_word_write : after (busAccess 0xFFFA1F (.wr16 0x1234) start) (fun t => (t.mfp.tadr, t.mem))
    = some (0x12, [(0xFFFA20, 0x34)]) := by decide

/-- B3.8: where the bus-error ranges end. -/
theorem test_berr_ranges : ([0xFF8924, 0xFF8A3C, 0xFF9222, 0xFF8925, 0xFF8A3D, 0xFF9223, 0xFF88FF, 0xFF91FF] : List Addr).map
      (fun a => (firstBusError .byte a).isSome)
    = [true, true, true, false, false, false, false, false] := by decide

/-- B3.7: the fault address of a long read that begins below the range. -/
theorem test_berr_first : firstBusError .long 0xFF88FE = some 0xFF8900 := by decide

/-- RAM with a bus-error vector (B3). -/
def vectored : State := { start with mem := [(8, 0x00), (9, 0xFC), (10, 0x12), (11, 0x34)] }

/-- B3.1: the registers after a bus error in user mode. -/
theorem test_berr_registers : after (exec (.berrSteDmaSound 0xFF8900 .rd8)
      { vectored with cpu := { vectored.cpu with regs := { vectored.cpu.regs with sr := 0x0300, usp := 0x20000 } } })
    (fun t => (t.cpu.regs.sr, t.cpu.regs.ssp, t.cpu.regs.pc, t.cpu.regs.usp))
    = some (0x2300, 0x7FF2, 0x00FC1234, 0x20000) := by decide

/-- B3.6: with a zero vector a write does nothing. -/
theorem test_berr_no_vector : after
    (exec (.berrBlitter 0xFF8A00 (.wr8 0x5A)) { start with mem := [(8, 0), (9, 0), (10, 0), (11, 0)] })
    (fun t => (t.mem, t.cpu.regs.pc)) = some ([(8, 0), (9, 0), (10, 0), (11, 0)], 0x10000) := by decide

/-- B3.9: a frame that meets the range halts. -/
theorem test_berr_double : exec (.berrSteDmaSound 0xFF8900 .rd8)
    { vectored with cpu := { vectored.cpu with regs := { vectored.cpu.regs with ssp := 0x00FF8910 } } }
    = .fault .cpuHalted := rfl

/-! The core (B15), the shifter (B13) and power-on (B10, B17). -/

/-- A word of an instruction at the start's PC. -/
def coded (hi lo : Byte) : State := { start with mem := [(0x10000, hi), (0x10001, lo)] }

/-- B15.1: an accepted HBL. -/
theorem test_interrupt_taken : after (coreStep { start with
      arb := { resetArb with hbl := true }
      cpu := { start.cpu with ipl := 2, regs := { start.cpu.regs with sr := 0x2100, pc := 0x00FC0500 } }
      mem := [(0x68, 0), (0x69, 1), (0x6A, 2), (0x6B, 4)] })
    (fun t => (t.cpu.regs.sr, t.cpu.regs.pc, t.mem.drop 4, t.cpu.ipl))
    = some (0x2200, 0x00010204,
      [(0x7FFA, 0x21), (0x7FFB, 0x00), (0x7FFC, 0x00), (0x7FFD, 0xFC), (0x7FFE, 0x05), (0x7FFF, 0x00)], 0) := by decide

/-- B15.5: ILLEGAL pushes its own address. -/
theorem test_illegal : after (coreStep { coded 0x4A 0xFC with
      mem := [(0x10, 0), (0x11, 1), (0x12, 2), (0x13, 4), (0x10000, 0x4A), (0x10001, 0xFC)] })
    (fun t => (t.cpu.regs.pc, (t.mem.drop 6).take 4))
    = some (0x00010204, [(0x7FFC, 0x00), (0x7FFD, 0x01), (0x7FFE, 0x00), (0x7FFF, 0x00)]) := by decide

/-- `moveq #-1,d3` and `addq.l #1,d3` (30_encoding.md R152). -/
theorem test_moveq_addq : after (coreStep (coded 0x76 0xFF)) (fun t => (getD t.cpu.regs 3, t.cpu.regs.pc, t.cpu.regs.sr))
      = some (0xFFFFFFFF, 0x10002, 0x2708)
    ∧ after (coreStep { coded 0x52 0x83 with
        cpu := { start.cpu with regs := setD start.cpu.regs 3 0xFFFFFFFF } })
        (fun t => (getD t.cpu.regs 3, t.cpu.regs.sr)) = some (0, 0x2715) := by decide

/-- R106, R503: after a store into the instruction that follows, the core may hold the word from before. -/
theorem test_store_into_next_word : after (coreStep { start with
      mem := [(0x10000, 0x33), (0x10001, 0xFC), (0x10002, 0x4E), (0x10003, 0x71), (0x10004, 0x00), (0x10005, 0x01),
        (0x10006, 0x00), (0x10007, 0x08), (0x10008, 0x60), (0x10009, 0xFE), (0x1000A, 0x12), (0x1000B, 0x34)] })
    (fun t => (t.cpu.regs.pc, t.cpu.ahead, wordAt t 0x10008)) = some (0x10008, [(0x10008, 0x60FE)], 0x4E71) := by decide

/-- R106: a word of the I/O page is never held ahead; its fetch is the bus's own read, with the ACIA's side effect. -/
theorem test_io_word_not_held :
    after (coreFetch 0xFFFC02#32 { start with
        cpu := { start.cpu with ahead := [(0xFFFC02, 0x1234)] }
        acia := { start.acia with status := 0x83, latch := 0x5A, hasLatched := true } })
      (fun t => (t.bus.extractLsb' 8 8, t.acia.hasLatched)) = some (0x5A, false) := by decide

/-- R106: a fetch of a word takes the held one or memory's, and holds neither afterwards, so that no later fetch of it,
made after the store, is of the old word. -/
theorem test_held_word_used_once (t : State)
    (h : coreFetch 0x10000#32 { start with cpu := { start.cpu with ahead := [(0x10000, 0x60FE)] } } = .next t) :
    t.cpu.ahead = [] := by
  unfold coreFetch at h
  split at h
  · next e => exact absurd e (by decide)
  · split at h
    · cases h; rfl
    · unfold cpuRead memRead at h
      rw [if_neg (by decide), show firstBusError .word (busAddr 0x10000#32) = none by decide] at h
      cases h; rfl

/-- R440: after a shutdown no agent and no operation changes the final state. -/
theorem test_shutdown_is_final :
    step { gotoAct .ended start with host := { start.host with turns := [.host], inbox := [.eject] }, ops := [0x05] }
    = .next { gotoAct .ended start with host := { start.host with turns := [.host], inbox := [.eject] }, ops := [0x05] } :=
  rfl

/-- R457: a frame whose last long reaches a bus-error range halts. -/
theorem test_halt_on_later_word : exec (.berrBlitter 0xFF8A00 .rd8)
    { vectored with cpu := { vectored.cpu with regs := { vectored.cpu.regs with ssp := 0xFF8902 } } }
    = .fault .cpuHalted := rfl

/-- R318: the second sector fails: one sector has moved. -/
theorem test_read_multi_fails_later : after (exec (.fdcReadSectorMulti 0) { multiDisk with disk := some cutDisk })
    (fun t => (t.wd.status, t.wd.dmaError, t.wd.dmaCount, t.wd.sector, t.wd.dmaAddr))
    = some (0x10, true, 2, 3, 2) := by decide

/-- R439: a host step falls between two emulator steps, and more arrive when no turn is listed. -/
theorem test_host_turn :
    after (takeTurn { start with host := { start.host with turns := [.host, .emulator], inbox := [.shutdown] } })
      (fun t => (t.loop.running, t.loop.act, t.host.turns)) = some (false, .latch, [.emulator])
    ∧ (hostArrives start).host.inbox = Config.hostSteps 0 := ⟨by decide, rfl⟩

/-- R17: the default of `FDC_TRACK_CMDS` is refuse. -/
theorem test_default_track_commands :
    exec (.fdcReadTrack 0) { start with params := defaultParams } = .refused .fdcTrackCommand := rfl

/-- R440: a host reset or shutdown before the first action ends the run before another frame. -/
theorem test_running_tested_before_frame :
    after (emulatorStep (requestStop .shutdown start)) (fun t => t.loop.act) = some .ended
    ∧ after (emulatorStep (requestStop .reset start)) (fun t => (t.loop.act, t.loop.running)) = some (.latch, true) := by
  decide

/-- R17, R378: another `IKBD_CMD_LEN`; R15, R17: another `ENV_TABLE`. -/
theorem test_other_tables :
    (ikbdReceive 0x01 { start with params := { resetParams with ikbdLen := [(0x01, 2)] } }).ikbd.cmd = [0x01]
    ∧ (ikbdReceive 0x01 start).ikbd.cmd = []
    ∧ envTableOf { resetParams with envTable := .rows [[], [7, 9]] } 1 1 = 9
    ∧ envTableOf resetParams 0xC 5 = 5 := by decide

/-- R453, R458: the pushed PC is even from an odd pc too. -/
theorem test_pushed_pc : (List.range 20).all (fun d =>
    [2, 4, 6, 8, 10].contains (pushedPc (BitVec.ofNat 32 d) 0x1000 - 0x1000).toNat
      && [3, 5, 7, 9].contains (pushedPc (BitVec.ofNat 32 d) 0x1001 - 0x1001).toNat) = true := by decide

/-- B13.2, B13.3: the colours. -/
theorem test_palette_colours :
    ([0x0000, 0x0777, 0x0700, 0x0070, 0x0007, 0x0333, 0x0421, 0x0FFF] : List Half).map (paletteColour .nibble)
      = [0xFF000000, 0xFFFFFFFF, 0xFFFF0000, 0xFF00FF00, 0xFF0000FF, 0xFF6D6D6D, 0xFF924924, 0xFFFFFFFF]
    ∧ ([0x0777, 0x0421, 0x01FF] : List Half).map (paletteColour .packed) = [0xFFB6DBFF, 0xFF009224, 0xFFFFFFFF] := by
  decide

/-- B13.6: the indices of a medium group, leftmost pixel first. -/
theorem test_pixel_index : (List.range 4).map (fun x => pixelIndex (15 - x) [0xAAAA, 0xCCCC]) = [3, 2, 1, 0] := by decide

/-- B10.5, B10.7: images that are rejected. -/
theorem test_rejected_images : loadSt [0x00] false = none ∧ loadMsa .minusOne [0x0E, 0x0E, 0, 9, 0, 1, 0, 0, 0, 0] false = none
    := by decide

/-- B10.10, B10.11 with shorter tracks: a record whose bytes run out, and a run that would pass the track's end. -/
theorem test_msa_records : msaRecord 20 [0x00, 0x0A, 0xE5, 0xFF, 0x00, 0x08, 0xAA, 0xAA, 0xAA, 0xAA, 0xAA, 0xAA] = none
    ∧ msaRecord 4 [0x00, 0x05, 0xE5, 0xFF, 0x00, 0x05, 0x00] = none
    ∧ msaRecord 6 [0x00, 0x04, 0xE5, 0xFF, 0x00, 0x06, 0x77] = some ([0xFF, 0xFF, 0xFF, 0xFF, 0xFF, 0xFF], [0x77]) := by decide

/-- B17.1: an image of another length. -/
theorem test_config_tos_length : bootParams resetParams
    { tos := none, stModel := 0, ramConfiguration := 0, maxSpeed := false, floppy := none, mouseX := 2, mouseY := 2,
      sampleRate := 44100 } [0x60] = none := by decide

/-! Witnesses: for each statement with hypotheses, a state and operands that meet them, each clause at a boundary. -/

/-- A state that can run and has an operation pending, then nothing. -/
def pending : State := { State.reset with ops := [0x00, 0x88, 0xFF, 0x04, 0x1F] }

theorem witness_StepRunsTheDecodedOperation :
    (Running pending ∧ decode pending.ops = .ok (.ymSelectWr8 0x1F, []) ∧ (Instr.ymSelectWr8 0x1F).wellFormed = true)
    ∧ (Running State.reset ∧ State.reset.ops = [] ∧ State.reset.host.turns = [])
    ∧ (∀ u ∈ [Config.Turn.emulator, .host, .audio 2],
      Running { start with host := { start.host with turns := [u], inbox := [.eject] } } ∧ start.ops = [])
    ∧ Unmarked (gotoAct .ended start) ∧ (gotoAct .ended start).loop.act = .ended :=
  have valid : validParams start.params = true := by decide
  have latch : Act.latch ≠ .ended := by decide
  ⟨⟨⟨⟨rfl, rfl, valid⟩, latch⟩, rfl, rfl⟩, ⟨⟨⟨rfl, rfl, valid⟩, latch⟩, rfl, rfl⟩,
   fun _ _ => ⟨⟨⟨rfl, rfl, valid⟩, latch⟩, rfl⟩, ⟨rfl, rfl, valid⟩, rfl⟩

theorem witness_DecodeOfEncodeIsTheOperation : ∀ i ∈ ([.unclaimedIo 0xFF8000 .rd8, .unclaimedIo 0xFFFFFF (.wr8 1),
    .unclaimedIo 0xFF88FC .rd32, .berrSteDmaSound 0xFF88FD .rd32, .berrSteDmaSound 0xFF8924 (.wr16 2),
    .berrBlitter 0xFF8A00 .rd8, .berrSteJoystick 0xFF9222 .rd8, .unknownFirstByte 0xFF, .palette 31 .rd32]
    : List Instr), i.wellFormed = true := by decide

theorem witness_DecodedOperationsAreWellFormed :
    decode [0xFF, 0xFF, 0xFF, 0x01, 0xAA] = .ok (.unclaimedIo 0xFFFFFF .rd8, [0xAA]) := by decide

theorem witness_BusAccessRunsItsRow : decodeBus 0xFF8000 .rd8 = .ok (.unclaimedIo 0xFF8000 .rd8)
    ∧ decodeBus 0xFF88FD .rd32 = .ok (.berrSteDmaSound 0xFF88FD .rd32)
    ∧ decodeBus 0xFFFFFF (.wr32 1) = .ok (.unclaimedIo 0xFFFFFF (.wr32 1)) := by decide

theorem witness_WideAccessesAreSplit :
    (firstBusError .word 0xFF88FE = none ∧ (0xFF88FE#24 ≠ 0xFF8604#24 ∧ 0xFF88FE#24 ≠ 0xFF8606#24))
    ∧ firstBusError .long 0xFF8925 = none ∧ firstBusError .long 0xFF88FC = none := by decide

theorem start_params : start.params = resetParams := rfl

theorem witness_RamRomAndUnmappedAccesses :
    (MemOk start ∧ inRam start.params 0x000008 2 ∧ inRam start.params 0x07FFFE 2
      ∧ inRam start.params 0x000008 1 ∧ inRam start.params 0x07FFFF 1)
    ∧ ((0x000007#24).toNat < 8)
    ∧ (∀ a ∈ ([0xFC0000, 0xFEFFFF] : List Addr), tosBase start.params ≤ a.toNat
        ∧ a.toNat < tosBase start.params + tosBytes start.params)
    ∧ (∀ a ∈ ([0x080000, 0xFBFFFF] : List Addr), ramBytes start.params ≤ a.toNat
        ∧ a.toNat < tosBase start.params)
    ∧ ∀ a ∈ ([0xFF0000, 0xFF7FFF] : List Addr),
        tosBase start.params + tosBytes start.params ≤ a.toNat ∧ a.toNat < 0xFF8000 :=
  ⟨⟨rfl, by unfold inRam; decide⟩, by decide,
   by simp [start_params, tosBase, tosBytes, resetParams, defaultParams],
   by simp [start_params, tosBase, ramBytes, resetParams, defaultParams],
   by simp [start_params, tosBase, tosBytes, resetParams, defaultParams]⟩

/-- The framebuffer of reset has the shape of 10_state.md R63. -/
theorem pending_video : VideoOk pending :=
  ⟨List.length_replicate, fun r h => by rw [List.eq_of_mem_replicate h]; exact List.length_replicate, by decide⟩

theorem witness_StepKeepsMemoryCanonical : MemOk pending ∧ ∃ t, step pending = .next t := ⟨rfl, _, rfl⟩
theorem witness_StepKeepsInterruptLines : IrqOk pending ∧ ∃ t, step pending = .next t := ⟨⟨rfl, rfl⟩, _, rfl⟩
theorem witness_StepKeepsTimersInRange : MfpOk pending ∧ ∃ t, step pending = .next t :=
  ⟨by unfold MfpOk CounterOk; decide, _, rfl⟩
theorem witness_StepKeepsSoundGeneratorInRange : YmOk pending ∧ ∃ t, step pending = .next t :=
  ⟨by unfold YmOk; decide, _, rfl⟩
theorem witness_StepLeavesNoFdcCommandRunning : WdOk pending ∧ ∃ t, step pending = .next t :=
  ⟨by unfold WdOk; decide, _, rfl⟩
theorem witness_StepKeepsAciaStatus : AciaOk pending ∧ ∃ t, step pending = .next t := ⟨rfl, _, rfl⟩
theorem witness_StepKeepsFramebufferShape : VideoOk pending ∧ ∃ t, step pending = .next t := ⟨pending_video, _, rfl⟩
theorem witness_StepKeepsReservedSrBits : SrOk pending ∧ ∃ t, step pending = .next t := ⟨rfl, _, rfl⟩
theorem witness_StepKeepsRomAndParameters : ∃ t, step pending = .next t := ⟨_, rfl⟩

theorem witness_MarkedStatesTakeNoStep :
    ({ start with faults := [.videoHighRes] } : State).faults = .videoHighRes :: []
    ∧ (({ start with refused := true } : State).faults = [] ∧ ({ start with refused := true } : State).refused = true)
    ∧ ∃ t, step pending = .next t := ⟨rfl, ⟨rfl, rfl⟩, _, rfl⟩

/-- A user-mode core about to run `moveq #-1,d3`. -/
def userCore : State := { coded 0x76 0xFF with cpu := { start.cpu with regs := { start.cpu.regs with sr := 0x0700 } } }

theorem witness_UserModeKeepsSystemState : srS userCore.cpu.regs.sr = false ∧ ∃ t, coreStep userCore = .next t :=
  ⟨rfl, _, rfl⟩

/-- A core stopped with the mask 7. -/
def stoppedCore : State := { start with cpu := { start.cpu with stopped := true } }

theorem witness_StopAtMaskSevenNeverResumes :
    (IrqOk stoppedCore ∧ stoppedCore.cpu.stopped = true ∧ srMask stoppedCore.cpu.regs.sr = 7
      ∧ ∃ t, emulatorStep stoppedCore = .next t)
    ∧ ∃ t, emulatorStep { stoppedCore with
        loop := { resetLoop with act := .latch, running := false, request := some .reset } } = .next t :=
  ⟨⟨⟨rfl, rfl⟩, rfl, rfl, _, rfl⟩, _, rfl⟩

theorem witness_WarmResetKeepsMemoryAndDisk :
    let s : State := { start with loop := { resetLoop with act := .latch, running := false, request := some .reset } }
    s.loop.act = .latch ∧ s.loop.running = false ∧ s.loop.request = some .reset := ⟨rfl, rfl, rfl⟩

theorem witness_PowerOnLoadsTheImage :
    (List.replicate 0x30000 (0x60#8)).length = tosBytes resetParams
    ∧ (List.replicate 0x40000 (0x60#8)).length = tosBytes { resetParams with tosSize := .k256 } :=
  ⟨List.length_replicate, List.length_replicate⟩

/-- A document that gives a TOS image and a floppy. -/
def bootJson (tos : Option (List Byte)) (floppy : Option (Option FloppyFile)) : JsonConfig :=
  { tos := some tos, stModel := none, ramConfiguration := some 3, maxSpeed := none, floppy := floppy, mouseX := some 1,
    mouseY := none, sampleRate := some 16384000000, debugMode := none }

/-- A .MSA file of one track of no sectors, which is loaded. -/
def emptyMsa : FloppyFile := { msa := true, file := [0x0E, 0x0F, 0, 0, 0, 0, 0, 0, 0, 0, 0, 0], writeProtected := false }

theorem witness_ConfigurationErrorsRefuse :
    (CliFlag.help ∈ [CliFlag.debug, .help]) ∧ (CliFlag.help ∉ [CliFlag.debug] ∧ jsonInForce none [.debug] = none)
    ∧ (∀ image floppy, jsonInForce (some (bootJson image floppy)) [.debug] = some (bootJson image floppy)
      ∧ (combineConfig resetParams (bootJson image floppy) [.debug]).tos = image
      ∧ (combineConfig resetParams (bootJson image floppy) [.debug]).floppy = floppy)
    ∧ (let c := combineConfig resetParams (bootJson none none) [.debug]
      0 ≤ c.ramConfiguration ∧ c.ramConfiguration ≤ 3 ∧ c.stModel = 0 ∧ 0 < c.mouseX ∧ 0 < c.mouseY
        ∧ 0 < c.sampleRate ∧ c.sampleRate ≤ 16384000000)
    ∧ ((List.replicate 0x30000 (0x60#8)).length = 0x30000 ∧ (List.replicate 0x40000 (0x60#8)).length = 0x40000)
    ∧ ([0x60#8].length ≠ 0x30000 ∧ [0x60#8].length ≠ 0x40000)
    ∧ (∀ r ∈ ([-1, 4] : List Int), r < 0 ∨ 3 < r) ∧ (∀ h ∈ ([0, 16384000001] : List Int), h ≤ 0 ∨ 16384000000 < h)
    ∧ loadFloppy .minusOne { msa := false, file := [0x00], writeProtected := false } = none
    ∧ (∃ x, loadFloppy .minusOne emptyMsa = some x) ∧ ikbdLensOk resetParams = true :=
  ⟨by decide, by decide, fun _ _ => ⟨rfl, rfl, rfl⟩, by decide, ⟨List.length_replicate, List.length_replicate⟩,
   by decide, by decide, by decide, by decide, ⟨_, rfl⟩, by decide⟩

theorem witness_TypeOneCommandsMoveTheHead :
    (0 = match (withDisk resetWd).disk with | some d => d.tracks - 1 | none => 255)
    ∧ 0 = min ((withDisk resetWd).wd.head + 1) 0 ∧ 0 = min ((withDisk resetWd).wd.head - 1) 0
    ∧ (255 = match start.disk with | some d => d.tracks - 1 | none => 255) := ⟨rfl, rfl, rfl, rfl⟩

theorem witness_FailedCommandsReportTheirStatus :
    (∃ failed : Byte → Byte → State, ∀ c st, failed c st = { withIrq (fdcPulse start.params start.mfp) start with
      wd := { start.wd with command := c, status := st, dmaError := true, multi := false } })
    ∧ ¬ (start.wd.drive = .driveA ∧ start.disk.isSome)
    ∧ ¬ ((withDisk resetWd).wd.drive = .driveA ∧ ({ withDisk resetWd with disk := none } : State).disk.isSome)
    ∧ (withDisk resetWd).wd.drive = .driveA ∧ (withDisk resetWd).disk = some smallDisk
    ∧ { smallDisk with writeProtected := true }.writeProtected = true
    ∧ overruns (withDisk { resetWd with sector := 0, dmaCount := 1 }).wd smallDisk
    ∧ overruns (withDisk { resetWd with sector := 4, dmaCount := 1 }).wd smallDisk
    ∧ smallDisk.writeProtected = false
    ∧ (∃ after : Wd → Wd, ∀ w, after w = { w with
        dmaCount := multiDisk.wd.dmaCount - BitVec.ofNat 8 1, sector := sectorAfter 3 multiDisk.wd.sector 1
        dmaAddr := multiDisk.wd.dmaAddr + BitVec.ofNat 24 (1 * 2) })
    ∧ 1 < multiDisk.wd.dmaCount.toNat ∧ cutDisk.writeProtected = false
    ∧ (∀ i, i < 1 → ¬ overruns { multiDisk.wd with sector := sectorAfter cutDisk.spt multiDisk.wd.sector i } cutDisk)
    ∧ overruns { multiDisk.wd with sector := sectorAfter cutDisk.spt multiDisk.wd.sector 1 } cutDisk :=
  ⟨⟨_, fun _ _ => rfl⟩, by decide, by decide, rfl, rfl, rfl, by unfold overruns; decide, by unfold overruns; decide, rfl,
   ⟨_, fun _ => rfl⟩, by decide, rfl, by unfold overruns; decide, by unfold overruns; decide⟩

theorem witness_ReadSectorMovesOneSector : ∀ n ∈ ([1, 3] : List Byte), MemOk (withDisk { resetWd with sector := n })
    ∧ (withDisk { resetWd with sector := n }).wd.drive = .driveA
    ∧ (withDisk { resetWd with sector := n }).disk = some smallDisk
    ∧ ¬ overruns (withDisk { resetWd with sector := n }).wd smallDisk ∧ smallDisk.bps ≤ 2 ^ 24 := by
  unfold overruns MemOk; decide

theorem witness_ReadSectorMultipleMovesTheCount : MemOk multiDisk ∧ multiDisk.wd.drive = .driveA
    ∧ multiDisk.disk = some smallDisk ∧ 3 ≤ multiDisk.wd.dmaCount.toNat
    ∧ (∀ i, i < 3 →
        ¬ overruns { multiDisk.wd with sector := sectorAfter smallDisk.spt multiDisk.wd.sector i } smallDisk)
    ∧ 3 = multiDisk.wd.dmaCount.toNat ∧ 3 * smallDisk.bps ≤ 2 ^ 24
    ∧ ({ multiDisk with disk := some cutDisk } : State).disk = some cutDisk
    ∧ (∀ i, i < 1 → ¬ overruns { multiDisk.wd with sector := sectorAfter cutDisk.spt multiDisk.wd.sector i } cutDisk)
    ∧ overruns { multiDisk.wd with sector := sectorAfter cutDisk.spt multiDisk.wd.sector 1 } cutDisk
    ∧ 1 * cutDisk.bps ≤ 2 ^ 24 := by unfold overruns MemOk; decide

theorem witness_WriteSectorReplacesOneSector : (withDisk { resetWd with sector := 3 }).wd.drive = .driveA
    ∧ (withDisk { resetWd with sector := 3 }).disk = some smallDisk ∧ smallDisk.writeProtected = false
    ∧ ¬ overruns (withDisk { resetWd with sector := 3 }).wd smallDisk := by unfold overruns; decide

theorem witness_WriteSectorMultipleReplacesTheCount : multiDisk.wd.drive = .driveA
    ∧ multiDisk.disk = some smallDisk ∧ smallDisk.writeProtected = false ∧ 3 ≤ multiDisk.wd.dmaCount.toNat
    ∧ 3 = multiDisk.wd.dmaCount.toNat ∧ cutDisk.writeProtected = false
    ∧ overruns { multiDisk.wd with sector := sectorAfter cutDisk.spt multiDisk.wd.sector 1 } cutDisk
    ∧ (∀ i, i < 3 →
        ¬ overruns { multiDisk.wd with sector := sectorAfter smallDisk.spt multiDisk.wd.sector i } smallDisk)
    ∧ ∀ i', 2 < i' → i' < 3 → sectorAfter smallDisk.spt multiDisk.wd.sector i'
        ≠ sectorAfter smallDisk.spt multiDisk.wd.sector 2 := by
  refine ⟨rfl, rfl, rfl, by decide, rfl, rfl, by unfold overruns; decide, by unfold overruns; decide,
    fun i' h h' => by omega⟩

theorem witness_ReadAddressPutsTheIdField :
    MemOk (withDisk resetWd) ∧ (withDisk resetWd).wd.drive = .driveA ∧ (withDisk resetWd).disk = some smallDisk :=
  ⟨rfl, rfl, rfl⟩

theorem witness_ForceInterruptAndTrackCommands :
    ({ start with params := { resetParams with trackCmds := .refuse } } : State).params.trackCmds = .refuse
    ∧ start.params.trackCmds = .havoc ∧ MemOk start ∧ start.disk = none
    ∧ (withDisk resetWd).params.trackCmds = .havoc ∧ (withDisk resetWd).disk = some smallDisk
    ∧ ({ withDisk resetWd with wd := resetWd } : State).disk = some smallDisk := ⟨rfl, rfl, rfl, rfl, rfl, rfl, rfl⟩

theorem witness_MfpTimerDataRegisters :
    ∃ load : Counter → Counter, ∀ v : Byte, v = 0 → ∀ c, load c = { c with cnt := if v = 0 then 256 else v.toNat } :=
  ⟨fun c => { c with cnt := 256 }, by rintro _ rfl _; rfl⟩

theorem witness_AciaRegisterAccesses :
    (0x02#8 &&& 0x03#8 ≠ 0x03#8) ∧ (0x57#8 &&& 0x03#8 = 0x03#8)
    ∧ (start.ikbd.cmd ++ [0x01#8] = 0x01#8 :: [] ∧ ikbdLenOf start.params 0x01 = none)
    ∧ (start.ikbd.cmd ++ [0x80#8] = 0x80#8 :: [] ∧ ikbdLenOf start.params 0x80 = some 2 ∧ (0x80#8 :: []).length ≠ 2)
    ∧ ikbdLen 0x80 = some 2
    ∧ (([0x80#8] : List Byte) ++ [0x01#8] = 0x80#8 :: [0x01#8] ∧ (0x80#8 :: [0x01#8]).length = 2) := by decide

theorem witness_IkbdCommandsRunWhenWritten :
    ((Instr.ikbdReset 0x01).wellFormed = true ∧ encode (.ikbdReset 0x01) = 0x80#8 :: 0x02 :: 0x00 :: [0x01#8])
    ∧ ((Instr.unknownFirstByte 0xFF).wellFormed = true
      ∧ encode (.unknownFirstByte 0xFF) = 0xFF#8 :: 0x02 :: 0x00 :: [])
    ∧ start.ikbd.cmd = [] ∧ ikbdLenOf start.params 0x80 = ikbdLen 0x80
    ∧ ikbdLenOf { resetParams with ikbdLen := [(0x80, 2)] } 0xFF = ikbdLen 0xFF := by decide

theorem witness_IkbdCommandEffects :
    ∃ after : Bool → Bool → List Byte → State, ∀ m j q, after m j q = { start with
      ikbd := { start.ikbd with cmd := [], mouseOn := m, joyOn := j }, acia := { start.acia with queue := q } } :=
  ⟨_, fun _ _ _ => rfl⟩

theorem witness_PlainRegisterReads :
    (∀ p ∈ plainRows 31 0xFF88FC (readAccess .long), allPlain .long p.2 = true)
    ∧ (∀ p ∈ plainRows 0 0xFFFFFF (readAccess .byte), allPlain .byte p.2 = true) := by decide

theorem witness_PlainRegisterWrites : MemOk start
    ∧ (∀ p ∈ plainRows 31 0xFF8925 (writeAccess .long 0x12345678), allPlain .long p.2 = true)
    ∧ (∀ p ∈ plainRows 0 0xFF8000 (writeAccess .word 0x1234), allPlain .word p.2 = true) := by
  unfold MemOk; decide

/-- RAM with a zero bus-error vector. -/
def unvectored : State := { start with mem := [(8, 0), (9, 0), (10, 0), (11, 0)] }

theorem witness_BusErrorsAreSkippedWithoutAVector : longAt unvectored 8 = 0
    ∧ firstBusError .long 0xFF88FD = some 0xFF8900 ∧ firstBusError .byte 0xFF9222 = some 0xFF9222 := by decide

theorem witness_BusErrorsPushTheGroupZeroFrame : MemOk vectored ∧ longAt vectored 8 ≠ 0
    ∧ firstBusError .word 0xFF8924 = some 0xFF8924
    ∧ (0x7FF2#24 = (vectored.cpu.regs.ssp - 14).setWidth 24) ∧ vectored.cpu.regs.ssp.getLsbD 0 = false
    ∧ inRam vectored.params 0x7FF2 14 ∧ inRam vectored.params 8 14 ∧ inRam vectored.params 0x7FFF2 14 := by
  unfold MemOk inRam; decide

theorem witness_SecondBusErrorsHalt : longAt vectored 8 ≠ 0 ∧ firstBusError .byte 0xFF8A00 = some 0xFF8A00
    ∧ (0x8001#32).getLsbD 0 = true
    ∧ (firstBusError .byte ((0x00FF8910#32 - 14).setWidth 24 + BitVec.ofNat 24 0)).isSome = true
    ∧ (firstBusError .byte ((0x00FF8902#32 - 14).setWidth 24 + BitVec.ofNat 24 12)).isSome = true := by decide

theorem witness_MfpAcknowledgeTakesTheHighestChannel :
    (∀ n, n < 16 → channelActive { (pendingMfp 0 0x10 0x48).mfp with isra := 0x20 } n = true →
        ∃ h, h < 16 ∧ n ≤ h ∧ channelBit 0x20 0x00 h = true)
    ∧ (∀ w ∈ ([4, 15] : List Nat), w < 16)
    ∧ channelActive (pendingMfp 0 0x10 0x48).mfp 4 = true
    ∧ (∀ n, n < 16 → 4 < n → channelActive (pendingMfp 0 0x10 0x48).mfp n = false)
    ∧ (∀ n, n < 16 → 4 ≤ n → channelBit (pendingMfp 0 0x10 0x48).mfp.isra (pendingMfp 0 0x10 0x48).mfp.isrb n = false)
    ∧ channelActive (pendingMfp 0x80 0x10 0x48).mfp 15 = true := by
  refine ⟨?_, by decide, by decide, by decide, by decide, by decide⟩
  intro n hn h
  refine ⟨13, by decide, ?_, by decide⟩
  revert h; revert hn; revert n; decide

theorem witness_ActiveChannelsDriveLevelSix : IrqOk start
    ∧ IrqOk { pendingMfp 0 0x10 0x48 with arb := ⟨false, true, true⟩, cpu := { start.cpu with ipl := 6 } } :=
  ⟨⟨rfl, rfl⟩, rfl, rfl⟩

/-- A VBL that the mask lets through. -/
def interrupted : State :=
  { start with
    arb := { resetArb with vbl := true }
    cpu := { start.cpu with ipl := 4, regs := { start.cpu.regs with sr := 0x2300 } } }

theorem witness_AcceptedInterruptsAreTaken : MemOk interrupted
    ∧ (srMask interrupted.cpu.regs.sr < interrupted.cpu.ipl ∨ interrupted.cpu.ipl = 7)
    ∧ ({ interrupted.cpu with ipl := 7 }.ipl = 7)
    ∧ (0x7FFA#24 = (interrupted.cpu.regs.ssp - 6).setWidth 24) ∧ interrupted.cpu.regs.ssp.getLsbD 0 = false
    ∧ inRam interrupted.params 0x7FFA 6 ∧ inRam interrupted.params 8 6 ∧ inRam interrupted.params 0x7FFFA 6 := by
  unfold MemOk inRam; decide

theorem witness_ShortFrameExceptionsAreTaken :
    (MemOk (coded 0x4A 0xFC) ∧ interruptAccepted (coded 0x4A 0xFC).cpu = false
      ∧ (coded 0x4A 0xFC).cpu.stopped = false ∧ (coded 0x4A 0xFC).cpu.regs.pc.getLsbD 0 = false
      ∧ inRam (coded 0x4A 0xFC).params 0x10000 2 ∧ 0x4AFC#16 = wordAt (coded 0x4A 0xFC) 0x10000
      ∧ (0x7FFA#24 = ((coded 0x4A 0xFC).cpu.regs.ssp - 6).setWidth 24)
      ∧ (coded 0x4A 0xFC).cpu.regs.ssp.getLsbD 0 = false ∧ inRam (coded 0x4A 0xFC).params 0x7FFA 6)
    ∧ (0xA000#16 = wordAt (coded 0xA0 0x00) 0x10000 ∧ 0xA000#16 &&& 0xF000#16 = 0xA000#16)
    ∧ (0xFFFF#16 = wordAt (coded 0xFF 0xFF) 0x10000 ∧ 0xFFFF#16 &&& 0xF000#16 = 0xF000#16)
    ∧ (0x4E72#16 = wordAt (coded 0x4E 0x72) 0x10000 ∧ 0x4E73#16 = wordAt (coded 0x4E 0x73) 0x10000)
    ∧ srS userCore.cpu.regs.sr = false ∧ interruptAccepted userCore.cpu = false := by
  unfold MemOk inRam; decide

/-- The word the core holds is the next one's, none of those it fetches: with the states of the next two witnesses. -/
theorem witness_ahead :
    (∀ e ∈ (coded 0x4A 0xFC).cpu.ahead, e.1 ≠ 0x10000) ∧ (∀ e ∈ (coded 0x4E 0x73).cpu.ahead, e.1 ≠ 0x10002)
    ∧ ∀ e ∈ (setAhead [(0x10004, 0x60FE)] (coded 0x4E 0x72)).cpu.ahead, e.1 ≠ 0x10000 ∧ e.1 ≠ 0x10002 :=
  ⟨List.forall_mem_nil _, List.forall_mem_nil _, List.forall_mem_singleton.2 ⟨by decide, by decide⟩⟩

theorem witness_RteRestoresAndStopStops :
    interruptAccepted (coded 0x4E 0x73).cpu = false ∧ (coded 0x4E 0x73).cpu.stopped = false
    ∧ srS (coded 0x4E 0x73).cpu.regs.sr = true ∧ srT (coded 0x4E 0x73).cpu.regs.sr = false
    ∧ (coded 0x4E 0x73).cpu.regs.pc.getLsbD 0 = false
    ∧ (0x10000#24 = (coded 0x4E 0x73).cpu.regs.pc.setWidth 24)
    ∧ inRam (coded 0x4E 0x73).params 0x10000 4 ∧ wordAt (coded 0x4E 0x73) 0x10000 = 0x4E73
    ∧ wordAt (coded 0x4E 0x72) 0x10000 = 0x4E72
    ∧ (0x8000#24 = (coded 0x4E 0x73).cpu.regs.ssp.setWidth 24) ∧ (coded 0x4E 0x73).cpu.regs.ssp.getLsbD 0 = false
    ∧ inRam (coded 0x4E 0x73).params 0x8000 6 ∧ inRam (coded 0x4E 0x73).params 0x7FFFA 6 := by
  unfold inRam; decide

theorem witness_DelayTicksCountDown : CounterOk (timerCounter start.mfp .a)
    ∧ delayDivisor (timerMode start.mfp .a) = none
    ∧ delayDivisor (timerMode { resetMfp with tacr := 0x01 } .a) = some 4
    ∧ delayDivisor (timerMode { resetMfp with tacr := 0x07 } .a) = some 200
    ∧ delayDivisor (timerMode { resetMfp with tacr := 0x08 } .a) = none
    ∧ CounterOk ⟨1, 0⟩ ∧ CounterOk ⟨256, 199⟩ := by unfold CounterOk; decide

theorem witness_EventTicksCountLines : CounterOk (timerCounter start.mfp .a) ∧ CounterOk (timerCounter start.mfp .b)
    ∧ timerMode { resetMfp with tbcr := 0x08, timerB := ⟨1, 0⟩ } .b = 8 := by unfold CounterOk; decide

theorem witness_AciaSyncLatchesOneByte :
    ({ start with acia := { resetAcia with hasLatched := true } } : State).acia.hasLatched = true
    ∧ (start.acia.hasLatched = false ∧ start.acia.queue = [])
    ∧ ({ resetAcia with queue := [0x1E] }.queue = 0x1E :: [])
    ∧ (513 : Int) - (512 : Nat) > 0 ∧ (512 : Int) - (512 : Nat) ≤ 0 := by
  decide

theorem witness_LinesAreDecodedFromThePlanes :
    let res (v : Byte) : Byte := storedByte { start with mem := [(0xFF8260, v)] } 0xFF8260 &&& 0x03#8
    res 0xFC = 0 ∧ res 0xFD = 1 ∧ res 0x02 = 2 ∧ res 0x03 = 3 := ⟨rfl, rfl, rfl, rfl⟩

theorem witness_PaletteWordsExpand :
    ∃ colour : Half → Half → Half → Word, ∀ r g b, colour r g b = 0xFF000000#32
      ||| ((expand8 ((r &&& 7#16).setWidth 3)).setWidth 32 <<< 16)
      ||| ((expand8 ((g &&& 7#16).setWidth 3)).setWidth 32 <<< 8) ||| (expand8 ((b &&& 7#16).setWidth 3)).setWidth 32 :=
  ⟨_, fun _ _ _ => rfl⟩

/-- The emulator's step from an action of the loop at a line. -/
def atAct (a : Act) (line : Nat) (run : Bool) : State :=
  { start with loop := { resetLoop with act := a, scanline := line, running := run } }

theorem witness_FrameActionsRunInOrder :
    (∀ p ∈ ([(.latch, 0), (.ymTail, 312), (.hbl, 0), (.acia, 62), (.acia, 63), (.acia, 262), (.acia, 263), (.eventTicks, 262),
        (.acia, 312), (.vbl, 312), (.pace, 312)] : List (Act × Nat)),
      (after (emulatorStep (atAct p.1 p.2 true)) fun _ => ()) = some ())
    ∧ (∃ t, emulatorStep { stoppedCore with loop := { resetLoop with act := .cpuMain } } = .next t)
    ∧ (∃ t, emulatorStep { stoppedCore with loop := { resetLoop with act := .cpuTail } } = .next t)
    ∧ (∀ a ∈ ([.ymMain, .mfpMain, .mfpTail, .writeBack, .render, .advance, .complete, .ended] : List Act),
      (after (emulatorStep (atAct a 63 true)) fun _ => ()) = some ())
    ∧ (after (emulatorStep (atAct .latch 312 false)) fun t => t.loop.act) = some .ended ∧ MemOk (atAct .writeBack 63 true)
    ∧ (∃ act : State → Act → State, ∀ u a, act u a = { u with loop := { u.loop with act := a } })
    ∧ ∃ lineEnd : State → State, ∀ u, lineEnd u = u :=
  ⟨by decide, ⟨_, rfl⟩, ⟨_, rfl⟩, by decide, by decide, rfl, ⟨_, fun _ _ => rfl⟩, _, fun _ => rfl⟩

theorem witness_NoiseAndToneGenerators :
    (1#17 ≠ 0#17 ∧ (1#17).getLsbD 0 = true) ∧ (0x12000#17).getLsbD 0 = false := by decide

end Sys2Proof.Tests
end

namespace Sys2Proof
open Machine

/-! ## Invariants of the memory, the timers and the picture

Each follows from the induction of Laws/Induction.lean: what is said here is what each primitive change of the block does
to the fields in question. -/

/-! What three device operations can do, once. -/

/-- A YM2149 data write changes the YM2149 and, through port A, the WD1772's drive (42_ym2149.md R252, R255). -/
theorem ymWriteData_cases (v : Byte) (s : State) :
    ∃ (y : Ym) (w : Wd), ymWriteData v s = { s with ym := y, wd := w } := by
  unfold ymWriteData
  dsimp only
  split
  · exact ⟨_, _, rfl⟩
  · split
    · exact ⟨_, _, rfl⟩
    · exact ⟨_, _, rfl⟩

/-- An ACIA control write changes the ACIA, and a master reset then releases its line (44_acia_ikbd.md R361). -/
theorem aciaControlWrite_cases (v : Byte) (s : State) :
    ∃ a : Acia, aciaControlWrite v s = { s with acia := a }
      ∨ aciaControlWrite v s = setGpip .acia true { s with acia := a } := by
  unfold aciaControlWrite
  dsimp only
  split
  · exact ⟨_, .inr rfl⟩
  · exact ⟨_, .inl rfl⟩

/-- The ACIA's pacing changes the ACIA, and pulls its line where it latches a byte (44_acia_ikbd.md R365). -/
theorem aciaSync_cases (n : Nat) (s : State) :
    ∃ a : Acia, aciaSync n s = { s with acia := a } ∨ aciaSync n s = setGpip .acia false { s with acia := a } := by
  unfold aciaSync
  split
  · exact ⟨s.acia, .inl rfl⟩
  · split
    · exact ⟨_, .inl rfl⟩
    · split
      · exact ⟨_, .inr rfl⟩
      · exact ⟨_, .inl rfl⟩

/-! Memory. -/

/-- Canonical memory depends on the memory alone. -/
theorem MemOk.of_mem {s t : State} (h : t.mem = s.mem) (hs : MemOk s) : MemOk t := by
  unfold MemOk
  rw [h]
  exact hs

theorem setGpip_memOk (l : GpipLine) (b : Bool) {s : State} (hs : MemOk s) : MemOk (setGpip l b s) :=
  hs.of_mem (setGpip_irq l b s).mem

/-- Of a WD1772 command only the DMA's stores and the havoc of RAM reach memory. -/
theorem commandWrite_memOk {c : Byte} {s t : State} (h : commandWrite c s = .next t) (hs : MemOk s) : MemOk t :=
  commandWrite_closed (P := MemOk)
    (wd := fun _ hs => hs)
    (gpip := fun l b hs => setGpip_memOk l b hs)
    (disk := fun _ hs => hs)
    (draws := fun _ hs => hs)
    (store := fun k v _ hs => storeByte_memWf hs k v)
    (havoc := havocRam_memWf) h hs

theorem memOk_coreClosed : CoreClosed MemOk where
  cpu _ _ hs := hs
  bus _ hs := hs
  draws _ hs := hs
  store k v _ hs := storeByte_memWf hs k v
  gpip l b hs := setGpip_memOk l b hs
  updateIrq hs := hs
  mfpWrite r v hs := hs.of_mem (mfpWrite_irq r v _).mem
  mfpIack hs := hs.of_mem (mfpIack_irq _).mem
  clearHbl hs := hs
  clearVbl hs := hs
  ymSelect _ hs := hs
  ymWriteData {s} v hs := by
    obtain ⟨y, w, e⟩ := ymWriteData_cases v s
    exact e ▸ hs
  aciaControl {s} v hs := by
    obtain ⟨a, e | e⟩ := aciaControlWrite_cases v s
    · exact e ▸ hs
    · exact e ▸ setGpip_memOk _ _ (s := { s with acia := a }) hs
  aciaDataRead hs := setGpip_memOk _ _ hs
  queue _ hs := hs
  ikbd _ hs := hs
  disk _ hs := hs
  wd _ _ _ hs := hs
  commandWrite := commandWrite_memOk

theorem memOk_closed : Closed MemOk where
  toCoreClosed := memOk_coreClosed
  ops _ hs := hs
  host _ hs := hs
  loop _ _ hs := hs
  updateTimers n hs := hs.of_mem (updateTimers_irq n _).mem
  tickEvent t hs := hs.of_mem (tickEvent_irq t _).mem
  raiseHbl hs := hs
  raiseVbl hs := hs
  ymSync _ hs := hs
  audioPull _ hs := hs
  aciaSync {s} n hs := by
    obtain ⟨a, e | e⟩ := aciaSync_cases n s
    · exact e ▸ hs
    · exact e ▸ setGpip_memOk _ _ (s := { s with acia := a }) hs
  row _ _ _ hs := hs
  counter _ hs := hs
  frameComplete hs := hs
  warmReset hs := hs

/-- Settles O8: every primitive change keeps the canonical form, so every step does. -/
theorem stepKeepsMemoryCanonical : Obligations.StepKeepsMemoryCanonical :=
  fun _ _ hs h => step_closed memOk_closed h hs

/-! Timers. -/

/-- The timers' invariant, in the words of Laws/Mfp.lean. -/
theorem mfpOk_iff (s : State) : MfpOk s ↔ TimerRange s.mfp :=
  ⟨fun ⟨ha, hb, hc, hd, hacc⟩ => ⟨ha, hb, hc, hd, hacc⟩, fun h => ⟨h.a, h.b, h.c, h.d, h.acc⟩⟩

theorem setGpip_timerRange (l : GpipLine) (b : Bool) {s : State} (hs : TimerRange s.mfp) :
    TimerRange (setGpip l b s).mfp := (setGpip_counters l b s).range hs

/-- No command of the WD1772 moves a counter: it reaches the MFP through its line alone. -/
theorem commandWrite_timerRange {c : Byte} {s t : State} (h : commandWrite c s = .next t) (hs : TimerRange s.mfp) :
    TimerRange t.mfp :=
  commandWrite_closed (P := fun u => TimerRange u.mfp)
    (wd := fun _ hs => hs)
    (gpip := fun l b hs => setGpip_timerRange l b hs)
    (disk := fun _ hs => hs)
    (draws := fun _ hs => hs)
    (store := fun _ _ _ hs => hs)
    (havoc := fun hs => hs) h hs

theorem resetMfp_timerRange : TimerRange resetMfp := by
  constructor <;> decide

theorem timerRange_coreClosed : CoreClosed fun s => TimerRange s.mfp where
  cpu _ _ hs := hs
  bus _ hs := hs
  draws _ hs := hs
  store _ _ _ hs := hs
  gpip l b hs := setGpip_timerRange l b hs
  updateIrq hs := hs
  mfpWrite r v hs := mfpWrite_range r v hs
  mfpIack hs := (mfpIack_counters _).range hs
  clearHbl hs := hs
  clearVbl hs := hs
  ymSelect _ hs := hs
  ymWriteData {s} v hs := by
    obtain ⟨y, w, e⟩ := ymWriteData_cases v s
    exact e ▸ hs
  aciaControl {s} v hs := by
    obtain ⟨a, e | e⟩ := aciaControlWrite_cases v s
    · exact e ▸ hs
    · exact e ▸ setGpip_timerRange _ _ (s := { s with acia := a }) hs
  aciaDataRead hs := setGpip_timerRange _ _ hs
  queue _ hs := hs
  ikbd _ hs := hs
  disk _ hs := hs
  wd _ _ _ hs := hs
  commandWrite := commandWrite_timerRange

theorem timerRange_closed : Closed fun s => TimerRange s.mfp where
  toCoreClosed := timerRange_coreClosed
  ops _ hs := hs
  host _ hs := hs
  loop _ _ hs := hs
  updateTimers _ hs := updateTimers_range hs
  tickEvent _ hs := tickEvent_range hs
  raiseHbl hs := hs
  raiseVbl hs := hs
  ymSync _ hs := hs
  audioPull _ hs := hs
  aciaSync {s} n hs := by
    obtain ⟨a, e | e⟩ := aciaSync_cases n s
    · exact e ▸ hs
    · exact e ▸ setGpip_timerRange _ _ (s := { s with acia := a }) hs
  row _ _ _ hs := hs
  counter _ hs := hs
  frameComplete hs := hs
  warmReset _ := resetMfp_timerRange

/-- Settles O10: only the MFP's counts, its data register writes and a reset move a counter, and each gives 1..256. -/
theorem stepKeepsTimersInRange : Obligations.StepKeepsTimersInRange :=
  fun s t hs h => (mfpOk_iff t).2 (step_closed timerRange_closed h ((mfpOk_iff s).1 hs))

/-! The picture. -/

/-- The parameters, the video, the frame loop and the marks are the same: what no device and no core reaches. -/
structure SameView (s t : State) : Prop where
  params : t.params = s.params
  video : t.video = s.video
  loop : t.loop = s.loop
  faults : t.faults = s.faults
  refused : t.refused = s.refused

theorem sameView_of_dev {s t : State} (h : DevFrame s t) : SameView s t :=
  ⟨h.params, h.video, h.loop, h.faults, h.refused⟩

/-- A property of what no device and no core reaches is kept by every operation and every boundary of the core. -/
theorem coreClosed_of_sameView {P : State → Prop} (keep : ∀ {s t : State}, SameView s t → P s → P t) :
    CoreClosed P where
  cpu _ _ := keep ⟨rfl, rfl, rfl, rfl, rfl⟩
  bus _ := keep ⟨rfl, rfl, rfl, rfl, rfl⟩
  draws _ := keep ⟨rfl, rfl, rfl, rfl, rfl⟩
  store _ _ _ := keep ⟨rfl, rfl, rfl, rfl, rfl⟩
  gpip l b := keep (sameView_of_dev (setGpip_irq l b _).dev)
  updateIrq := keep ⟨rfl, rfl, rfl, rfl, rfl⟩
  mfpWrite r v := keep (sameView_of_dev (mfpWrite_irq r v _).dev)
  mfpIack := keep (sameView_of_dev (mfpIack_irq _).dev)
  clearHbl := keep ⟨rfl, rfl, rfl, rfl, rfl⟩
  clearVbl := keep ⟨rfl, rfl, rfl, rfl, rfl⟩
  ymSelect _ := keep ⟨rfl, rfl, rfl, rfl, rfl⟩
  ymWriteData v := keep (sameView_of_dev (ymWriteData_dev v _))
  aciaControl v := keep (sameView_of_dev (aciaControlWrite_dev v _))
  aciaDataRead := keep (sameView_of_dev (aciaDataRead_dev _))
  queue _ := keep ⟨rfl, rfl, rfl, rfl, rfl⟩
  ikbd _ := keep ⟨rfl, rfl, rfl, rfl, rfl⟩
  disk _ := keep ⟨rfl, rfl, rfl, rfl, rfl⟩
  wd _ _ _ := keep ⟨rfl, rfl, rfl, rfl, rfl⟩
  commandWrite h := keep (sameView_of_dev (commandWrite_dev h))

/-- A property of what no device and no core reaches is kept by every step, if the video's and the frame loop's own
changes keep it. -/
theorem closed_of_sameView {P : State → Prop} (keep : ∀ {s t : State}, SameView s t → P s → P t)
    (loop : ∀ {s : State} (l : Loop),
      l.scanline = s.loop.scanline ∨ l.scanline < Config.linesPerFrame → P s → P { s with loop := l })
    (row : ∀ {s : State} (n : Nat) (ws : List Word), ws.length = 640 → P s → P (setRow n ws s))
    (counter : ∀ {s : State} (a : Addr), P s → P (setVideoCounter a s))
    (frameComplete : ∀ {s : State}, P s → P (raiseFrameComplete s))
    (warmReset : ∀ {s : State}, P s → P (warmReset s)) : Closed P where
  toCoreClosed := coreClosed_of_sameView keep
  ops _ := keep ⟨rfl, rfl, rfl, rfl, rfl⟩
  host _ := keep ⟨rfl, rfl, rfl, rfl, rfl⟩
  loop := loop
  updateTimers n := keep (sameView_of_dev (updateTimers_irq n _).dev)
  tickEvent t := keep (sameView_of_dev (tickEvent_irq t _).dev)
  raiseHbl := keep ⟨rfl, rfl, rfl, rfl, rfl⟩
  raiseVbl := keep ⟨rfl, rfl, rfl, rfl, rfl⟩
  ymSync _ := keep ⟨rfl, rfl, rfl, rfl, rfl⟩
  audioPull _ := keep ⟨rfl, rfl, rfl, rfl, rfl⟩
  aciaSync n := keep (sameView_of_dev (aciaSync_dev n _))
  row := row
  counter := counter
  frameComplete := frameComplete
  warmReset := warmReset

theorem VideoOk.of_sameView {s t : State} (h : SameView s t) (hs : VideoOk s) : VideoOk t := by
  unfold VideoOk
  rw [h.video, h.loop]
  exact hs

/-- A row stored is one of the 640-word rows, or the old one (45_video_shifter.md R414). -/
theorem setRow_videoOk (n : Nat) {ws : List Word} (hw : ws.length = 640) {s : State} (hs : VideoOk s) :
    VideoOk (setRow n ws s) := by
  obtain ⟨hrows, hwidth, hline⟩ := hs
  refine ⟨(List.length_set ..).trans hrows, fun r hr => ?_, hline⟩
  rcases List.mem_or_eq_of_mem_set hr with h | rfl
  · exact hwidth r h
  · exact hw

/-- The framebuffer at reset has the shape, and the line is 0 (10_state.md R74). -/
theorem warmReset_videoOk (s : State) : VideoOk (warmReset s) := by
  refine ⟨List.length_replicate, fun r hr => ?_, by show 0 < 313; omega⟩
  rw [List.eq_of_mem_replicate hr]
  exact List.length_replicate

theorem videoOk_closed : Closed VideoOk :=
  closed_of_sameView VideoOk.of_sameView
    (loop := fun _ hl ⟨hrows, hwidth, hline⟩ => ⟨hrows, hwidth, hl.elim (fun e => e ▸ hline) id⟩)
    (row := fun n _ hw hs => setRow_videoOk n hw hs)
    (counter := fun _ hs => hs)
    (frameComplete := fun hs => hs)
    (warmReset := fun _ => warmReset_videoOk _)

/-- Settles O14: the shifter stores whole rows, and the loop counts lines within the frame. -/
theorem stepKeepsFramebufferShape : Obligations.StepKeepsFramebufferShape :=
  fun _ _ hs h => step_closed videoOk_closed h hs

end Sys2Proof

namespace Sys2Proof
open Machine

/-! ## The reserved bits of SR

No device reaches the core's registers (DevFrame), so only the operations that load SR need an argument: each is made of
values whose reserved bits are 0. -/

/-- The bits of a value that SR reads as 0 are 0 (10_state.md R34). -/
def ReservedClear (v : Half) : Prop := v &&& 0x58E0#16 = 0#16

/-- The invariant of SR, as a fact of the value the core holds. -/
theorem srOk_iff (s : State) : SrOk s ↔ ReservedClear s.cpu.regs.sr := Iff.rfl

theorem ReservedClear.and {v : Half} (h : ReservedClear v) (w : Half) : ReservedClear (v &&& w) := by
  unfold ReservedClear at *
  rw [BitVec.and_assoc, BitVec.and_comm w, ← BitVec.and_assoc, h, BitVec.zero_and]

theorem ReservedClear.or {v w : Half} (hv : ReservedClear v) (hw : ReservedClear w) : ReservedClear (v ||| w) := by
  unfold ReservedClear at *
  rw [BitVec.and_or_distrib_right, hv, hw, BitVec.or_zero]

/-- A mask without the reserved bits clears them. -/
theorem reservedClear_mask {m : Half} (h : ReservedClear m) (v : Half) : ReservedClear (v &&& m) := by
  rw [BitVec.and_comm]
  exact h.and v

theorem reservedClear_srValue (v : Half) : ReservedClear (srValue v) :=
  reservedClear_mask (by unfold ReservedClear; decide) v

theorem ReservedClear.supervisor {v : Half} (h : ReservedClear v) : ReservedClear (srClearT (srSetS v true)) :=
  (h.or (w := 0x2000#16) (by unfold ReservedClear; decide)).and _

theorem ReservedClear.setMask {v : Half} (h : ReservedClear v) (l : BitVec 3) : ReservedClear (srSetMask v l) :=
  (h.and _).or (by unfold ReservedClear; revert l; decide)

theorem ReservedClear.withCcr {v : Half} (h : ReservedClear v) (c : BitVec 5) : ReservedClear (srWithCcr v c) :=
  (h.and _).or (by unfold ReservedClear; revert c; decide)

theorem ReservedClear.move {v : Half} (h : ReservedClear v) (w : Width) (x : Word) : ReservedClear (srMove w x v) :=
  h.withCcr _

theorem ReservedClear.addq1 {v : Half} (h : ReservedClear v) (x : Word) : ReservedClear (srAddq1 x v) := h.withCcr _

theorem ReservedClear.btst {v : Half} (h : ReservedClear v) (b : Bool) : ReservedClear (srBtst b v) := by
  cases b
  · exact h.or (by unfold ReservedClear; decide)
  · exact h.and _

theorem ReservedClear.user {c r : CoreRegs} (h : ReservedClear c.sr) : ReservedClear (userRegs c r).sr :=
  (h.and _).or (reservedClear_mask (by unfold ReservedClear; decide) _)

/-! The devices and the bus. -/

section
variable {s t : State}

theorem SrOk.of_regs (h : t.cpu.regs = s.cpu.regs) (hs : SrOk s) : SrOk t := by
  unfold SrOk
  rw [h]
  exact hs

theorem SrOk.dev (h : DevFrame s t) (hs : SrOk s) : SrOk t := hs.of_regs h.regs

theorem SrOk.enterSupervisor (hs : SrOk s) : SrOk (enterSupervisor s) :=
  (srOk_iff _).2 ((srOk_iff s).1 hs).supervisor

theorem pushGroup0_srOk {a : Addr} {rd prog : Bool} {sr0 : Half} (h : pushGroup0 a rd prog sr0 s = .next t)
    (hs : SrOk s) : SrOk t := by
  unfold pushGroup0 at h
  dsimp only at h
  split at h
  · cases h
  · obtain ⟨u1, h1, h⟩ := andThen_next h
    obtain ⟨u2, h2, h⟩ := andThen_next h
    obtain ⟨u3, h3, h⟩ := andThen_next h
    obtain ⟨u4, h4, h⟩ := andThen_next h
    have frame := ((((frameWrite_dev h1).trans (frameWrite_dev h2)).trans (frameWrite_dev h3)).trans
      (frameWrite_dev h4)).trans (frameWrite_dev h)
    exact SrOk.dev frame hs

theorem takeGroup0_srOk {a : Addr} {rd prog : Bool} {f : State → Word} (h : takeGroup0 a rd prog f s = .next t)
    (hs : SrOk s) : SrOk t := by
  unfold takeGroup0 at h
  obtain ⟨u, h1, h2⟩ := andThen_next h
  cases h2
  have hu : SrOk u := pushGroup0_srOk h1 hs.enterSupervisor
  exact hu

theorem memRead_srOk {w : Width} {a : Addr} {prog : Bool} (h : memRead w a prog s = .next t) (hs : SrOk s) :
    SrOk t := by
  unfold memRead busErrorRead at h
  split at h
  · split at h
    · cases h; exact hs
    · exact takeGroup0_srOk h hs
  · cases h; exact hs.of_regs (readRaw_dev w a s).regs

theorem memWrite_srOk {w : Width} {a : Addr} {v : Word} (h : memWrite w a v s = .next t) (hs : SrOk s) : SrOk t := by
  unfold memWrite busErrorWrite at h
  split at h
  · split at h
    · cases h; exact hs
    · exact takeGroup0_srOk h hs
  · exact hs.dev (writeRaw_dev h)

theorem busAccess_srOk {a : Addr} {acc : Access} (h : busAccess a acc s = .next t) (hs : SrOk s) : SrOk t := by
  cases acc with
  | rd8 => exact memRead_srOk (w := .byte) (prog := false) h hs
  | rd16 => exact memRead_srOk (w := .word) (prog := false) h hs
  | rd32 => exact memRead_srOk (w := .long) (prog := false) h hs
  | wr8 v => exact memWrite_srOk (w := .byte) (v := v.setWidth 32) h hs
  | wr16 v => exact memWrite_srOk (w := .word) (v := v.setWidth 32) h hs
  | wr32 v => exact memWrite_srOk (w := .long) (v := v) h hs

theorem irqAck_regs (l : BitVec 3) (s : State) : (irqAck l s).2.cpu.regs = s.cpu.regs := by
  unfold irqAck
  repeat' split
  · rfl
  · rfl
  · exact (mfpIack_irq s).regs
  · rfl

theorem ikbdResetCmd_regs (b : Byte) (s : State) : (ikbdResetCmd b s).cpu.regs = s.cpu.regs := by
  unfold ikbdResetCmd
  split <;> rfl

theorem exec_srOk {i : Instr} (h : exec i s = .next t) (hs : SrOk s) : SrOk t := by
  cases i
  case fdcDmaDataRd16 | fdcDmaDataLoRd8 => cases h; exact hs.of_regs (fdcRead_dev s).regs
  case fdcDmaDataWr16 v | fdcDmaDataLoWr8 v => exact hs.dev (fdcWrite_dev h)
  case mmuConfig acc | videoBaseHi acc | videoBaseMid acc | videoCounterHi acc | videoCounterMid acc
    | videoCounterLo acc | syncMode acc | palette off acc | resolution acc | unclaimedIo a acc
    | berrSteDmaSound a acc | berrBlitter a acc | berrSteJoystick a acc => exact busAccess_srOk h hs
  case fdcRestore fl => exact hs.dev (commandWrite_dev ((fdcRestore_eq fl s).symm.trans h))
  case fdcSeek fl => exact hs.dev (commandWrite_dev ((fdcSeek_eq fl s).symm.trans h))
  case fdcStep fl => exact hs.dev (commandWrite_dev ((fdcStep_eq fl s).symm.trans h))
  case fdcStepU fl => exact hs.dev (commandWrite_dev ((fdcStepU_eq fl s).symm.trans h))
  case fdcStepIn fl => exact hs.dev (commandWrite_dev ((fdcStepIn_eq fl s).symm.trans h))
  case fdcStepInU fl => exact hs.dev (commandWrite_dev ((fdcStepInU_eq fl s).symm.trans h))
  case fdcStepOut fl => exact hs.dev (commandWrite_dev ((fdcStepOut_eq fl s).symm.trans h))
  case fdcStepOutU fl => exact hs.dev (commandWrite_dev ((fdcStepOutU_eq fl s).symm.trans h))
  case fdcReadSector fl => exact hs.dev (commandWrite_dev ((fdcReadSector_eq fl s).symm.trans h))
  case fdcReadSectorMulti fl => exact hs.dev (commandWrite_dev ((fdcReadSectorMulti_eq fl s).symm.trans h))
  case fdcWriteSector fl => exact hs.dev (commandWrite_dev ((fdcWriteSector_eq fl s).symm.trans h))
  case fdcWriteSectorMulti fl => exact hs.dev (commandWrite_dev ((fdcWriteSectorMulti_eq fl s).symm.trans h))
  case fdcReadAddress fl => exact hs.dev (commandWrite_dev ((fdcReadAddress_eq fl s).symm.trans h))
  case fdcForceInterrupt fl => exact hs.dev (commandWrite_dev ((fdcForceInterrupt_eq fl s).symm.trans h))
  case fdcReadTrack fl => exact hs.dev (commandWrite_dev ((fdcReadTrack_eq fl s).symm.trans h))
  case fdcWriteTrack fl => exact hs.dev (commandWrite_dev ((fdcWriteTrack_eq fl s).symm.trans h))
  case aciaControlWr8 v => cases h; exact hs.dev (aciaControlWrite_dev v s)
  case aciaDataRd8 => cases h; exact hs.of_regs (aciaDataRead_dev s).regs
  case aciaDataWr8 v => cases h; exact hs.dev (ikbdReceive_dev v s)
  case ymDataWr8 v => cases h; exact hs.dev (ymWriteData_dev v s)
  case ikbdReset p => cases h; exact hs.of_regs (ikbdResetCmd_regs p s)
  case ymToneAFine v | ymToneACoarse v | ymToneBFine v | ymToneBCoarse v | ymToneCFine v | ymToneCCoarse v
    | ymNoisePeriod v | ymMixerEnable v | ymLevelA v | ymLevelB v | ymLevelC v | ymEnvPeriodFine v
    | ymEnvPeriodCoarse v | ymEnvShape v | ymPortA v | ymPortB v =>
    cases h; exact hs.of_regs (ymWriteData_dev _ (ymSelect _ s)).regs
  case iackL1 | iackL2 | iackL3 | iackL4 | iackL5 | iackL6 | iackL7 =>
    cases h; exact hs.of_regs (irqAck_regs _ s)
  -- The other rows write one register of a device, or answer one.
  all_goals cases h; exact hs

/-! The core. -/

theorem cpuRead_srOk {w : Width} {a : Word} {prog : Bool} (h : cpuRead w a prog s = .next t) (hs : SrOk s) :
    SrOk t := by
  unfold cpuRead at h
  split at h
  · exact takeGroup0_srOk h hs
  · exact memRead_srOk h hs

theorem cpuWrite_srOk {w : Width} {a v : Word} (h : cpuWrite w a v s = .next t) (hs : SrOk s) : SrOk t := by
  unfold cpuWrite at h
  split at h
  · exact takeGroup0_srOk h hs
  · exact memWrite_srOk h hs

theorem shortFrame_srOk {v : Byte} {sr : Half} {pc : Word} (h : shortFrame v sr pc s = .next t) (hs : SrOk s) :
    SrOk t := by
  unfold shortFrame at h
  refine CoreClosed.unwound h (fun u hu => cpuWrite_srOk hu hs) fun u h hu => ?_
  refine CoreClosed.unwound h (fun u hu' => cpuWrite_srOk hu' hu) fun u h hu => ?_
  cases h
  exact hu

theorem takeException_srOk {v : Byte} {pc : Word} (h : takeException v pc s = .next t) (hs : SrOk s) : SrOk t :=
  shortFrame_srOk h hs.enterSupervisor

theorem takeInterrupt_srOk (h : takeInterrupt s = .next t) (hs : SrOk s) : SrOk t := by
  have ack : SrOk (irqAck s.cpu.ipl s).2 := hs.of_regs (irqAck_regs _ s)
  have sup : SrOk (enterSupervisor (betweenInstructions (irqAck s.cpu.ipl s).2)) := SrOk.enterSupervisor ack
  exact shortFrame_srOk h (ReservedClear.setMask sup _)

theorem returnFromException_srOk (h : returnFromException s = .next t) (hs : SrOk s) : SrOk t := by
  unfold returnFromException at h
  refine CoreClosed.unwound h (fun u hu => cpuRead_srOk hu hs) fun u h hu => ?_
  refine CoreClosed.unwound h (fun u hu' => cpuRead_srOk hu' hu) fun u h _ => ?_
  cases h
  exact reservedClear_srValue _

theorem endInstruction_srOk {s0 : State} {o : Host.Outcome State Fault Refusal} (h : endInstruction s0 o = .next t)
    (ho : ∀ u, o = .next u → SrOk u) : SrOk t := by
  unfold endInstruction at h
  refine CoreClosed.unwound h ho fun u h hu => ?_
  split at h
  · exact takeException_srOk (s := setStopped false u) h hu
  · cases h; exact hu

theorem privileged_srOk {s0 : State} {f : State → Host.Outcome State Fault Refusal}
    (h : privileged s0 f s = .next t) (hf : ∀ u, f s = .next u → SrOk u) (hs : SrOk s) : SrOk t := by
  unfold privileged at h
  split at h
  · exact endInstruction_srOk h hf
  · exact takeException_srOk h hs

theorem coreException_srOk {n : Byte} {next : Word} (h : coreException n next s = .next t) (hs : SrOk s) :
    SrOk t := by
  unfold coreException traceAfter at h
  split at h
  · exact takeException_srOk h hs
  · split at h
    · refine CoreClosed.unwound h (fun u hu => takeException_srOk hu hs) fun u h hu => ?_
      split at h
      · exact takeException_srOk h hu
      · cases h; exact hu
    · cases h

theorem coreFetch_srOk {a : Word} (h : coreFetch a s = .next t) (hs : SrOk s) : SrOk t := by
  unfold coreFetch at h
  split at h
  · exact cpuRead_srOk h hs
  · split at h
    · cases h; exact hs
    · exact cpuRead_srOk (s := dropAhead (busAddr a) (nextDraw s)) h hs

theorem fetchWord_srOk {off : Word} {f : Half → State → Host.Outcome State Fault Refusal}
    (h : fetchWord off f s = .next t) (hs : SrOk s) (hf : ∀ v u, f v u = .next t → SrOk u → SrOk t) : SrOk t := by
  unfold fetchWord at h
  exact CoreClosed.unwound h (fun u hu => coreFetch_srOk hu hs) fun u h hu => hf _ u h hu

theorem fetchLong_srOk {off : Word} {f : Word → State → Host.Outcome State Fault Refusal}
    (h : fetchLong off f s = .next t) (hs : SrOk s) (hf : ∀ v u, f v u = .next t → SrOk u → SrOk t) : SrOk t :=
  fetchWord_srOk h hs fun _ _ h hu => fetchWord_srOk h hu fun _ u h hu => hf _ u h hu

theorem coreMoveImmAbs_srOk {w : Width} (h : coreMoveImmAbs w s = .next t) (hs : SrOk s) : SrOk t := by
  unfold coreMoveImmAbs at h
  dsimp only at h
  have store : ∀ (off a v : Word) (u : State), unlessUnwound (cpuWrite w a v u)
      (fun s2 => advanceWith off { s2.cpu.regs with sr := srMove w v s2.cpu.regs.sr } s2) = .next t →
      SrOk u → SrOk t := by
    intro off a v u h hu
    refine CoreClosed.unwound h (fun _ hw => cpuWrite_srOk hw hu) fun u' h hu' => ?_
    cases h
    exact ReservedClear.move hu' w v
  cases w with
  | long => exact fetchLong_srOk h hs fun _ _ h hu => fetchLong_srOk h hu fun _ u h hu => store _ _ _ u h hu
  | byte | word => exact fetchWord_srOk h hs fun _ _ h hu => fetchLong_srOk h hu fun _ u h hu => store _ _ _ u h hu

theorem coreMoveAbsD_srOk {w : Width} {n : BitVec 3} (h : coreMoveAbsD w n s = .next t) (hs : SrOk s) : SrOk t := by
  refine fetchLong_srOk h hs fun a u h hu => ?_
  refine CoreClosed.unwound h (fun _ hr => cpuRead_srOk hr hu) fun u' h hu' => ?_
  cases h
  exact ReservedClear.move hu' w _

theorem coreMoveDAbs_srOk {n : BitVec 3} (h : coreMoveDAbs n s = .next t) (hs : SrOk s) : SrOk t := by
  refine fetchLong_srOk h hs fun a u h hu => ?_
  refine CoreClosed.unwound h (fun _ hw => cpuWrite_srOk hw hu) fun u' h hu' => ?_
  cases h
  exact ReservedClear.move hu' _ _

theorem coreBtst_srOk (h : coreBtst s = .next t) (hs : SrOk s) : SrOk t := by
  refine fetchWord_srOk h hs fun b u h hu => fetchLong_srOk h hu fun a u h hu => ?_
  refine CoreClosed.unwound h (fun _ hr => cpuRead_srOk hr hu) fun u' h hu' => ?_
  cases h
  exact ReservedClear.btst hu' _

theorem coreStop_srOk (h : coreStop s = .next t) (hs : SrOk s) : SrOk t := by
  refine fetchWord_srOk h hs fun v u h _ => ?_
  cases h
  exact reservedClear_srValue v

theorem commitRegs_srOk (r : CoreRegs) (hs : SrOk s) : SrOk (commitRegs r s) := ReservedClear.user hs

theorem coreRead_srOk {w : Width} {a : Word} {prog : Bool} (h : coreRead w a prog s = .next t) (hs : SrOk s) :
    SrOk t := by
  unfold coreRead at h
  split at h
  · split at h
    · exact coreFetch_srOk h hs
    · exact cpuRead_srOk h hs
  all_goals exact cpuRead_srOk h hs

/-- The uninterpreted core, by its accesses: an unprivileged instruction leaves the system byte, and a privileged one
loads SR through `srValue`. -/
theorem coreRun_srOk {s0 : State} {fuel : Nat} {reads : List Word} (h : coreRun s0 fuel reads s = .next t)
    (hs : SrOk s) : SrOk t := by
  induction fuel generalizing reads s with
  | zero => cases h
  | succ n ih =>
    unfold coreRun at h
    split at h
    · exact CoreClosed.unwound h (fun _ hr => coreRead_srOk hr (commitRegs_srOk _ hs)) fun _ h hu => ih h hu
    · exact CoreClosed.unwound h (fun _ hw => cpuWrite_srOk hw (commitRegs_srOk _ hs)) fun _ h hu => ih h hu
    · exact endInstruction_srOk h fun _ hu => by cases hu; exact commitRegs_srOk _ hs
    · exact privileged_srOk h (fun _ hu => by cases hu; exact reservedClear_srValue _) hs
    · exact coreException_srOk h (commitRegs_srOk _ hs)
    · exact privileged_srOk h (fun _ hu => by cases hu; exact hs) hs
    · cases h

theorem coreExecute_srOk (h : coreExecute s = .next t) (hs : SrOk s) : SrOk t := by
  unfold coreExecute at h
  generalize coreForm s.cpu.ir = form at h
  cases form with
  | moveImmAbs w => exact endInstruction_srOk h fun _ hu => coreMoveImmAbs_srOk hu hs
  | moveAbsD w n => exact endInstruction_srOk h fun _ hu => coreMoveAbsD_srOk hu hs
  | moveDAbs n => exact endInstruction_srOk h fun _ hu => coreMoveDAbs_srOk hu hs
  | btstAbs => exact endInstruction_srOk h fun _ hu => coreBtst_srOk hu hs
  | beq d | bne d | bra d => exact endInstruction_srOk h fun _ hu => by cases hu; exact hs
  | moveq n v => exact endInstruction_srOk h fun _ hu => by cases hu; exact ReservedClear.move hs _ _
  | addq1 n => exact endInstruction_srOk h fun _ hu => by cases hu; exact ReservedClear.addq1 hs _
  | stop => exact privileged_srOk h (fun _ hu => coreStop_srOk hu hs) hs
  | rte => exact privileged_srOk h (fun _ hu => returnFromException_srOk hu hs) hs
  | illegal | lineA | lineF => exact takeException_srOk h hs
  | other => exact coreRun_srOk h hs

theorem coreStep_srOk (h : coreStep s = .next t) (hs : SrOk s) : SrOk t := by
  unfold coreStep at h
  dsimp only at h
  split at h
  · exact takeInterrupt_srOk (s := setStopped false (markBerr false s)) h hs
  · split at h
    · cases h; exact hs
    · exact fetchWord_srOk (s := beginInstruction (markBerr false s)) h hs fun v u h hu =>
        coreExecute_srOk (s := { u with cpu := { u.cpu with ir := v } }) h hu

/-! The frame loop and the host. -/

theorem deliver_regs (x : Config.HostStep) (s : State) : (deliver x s).cpu.regs = s.cpu.regs := by
  cases x with
  | mouseMove hx hy =>
    show (hostMouseMove hx hy s).cpu.regs = _
    unfold hostMouseMove
    split <;> rfl
  | mouseButton l r =>
    show (hostMouseButton l r s).cpu.regs = _
    unfold hostMouseButton
    dsimp only
    split <;> rfl
  | joystick i p =>
    show (hostJoystick i p s).cpu.regs = _
    unfold hostJoystick
    dsimp only
    split <;> rfl
  | insertSt f w =>
    show (insertDisk (loadSt f w) s).cpu.regs = _
    unfold insertDisk
    split <;> rfl
  | insertMsa f w =>
    show (insertDisk (loadMsa _ f w) s).cpu.regs = _
    unfold insertDisk
    split <;> rfl
  | key c d | eject | reset | shutdown => rfl

theorem deliverAll_regs (l : List Config.HostStep) (s : State) : (deliverAll l s).cpu.regs = s.cpu.regs := by
  induction l generalizing s with
  | nil => rfl
  | cons x t ih => exact (ih _).trans (deliver_regs x s)

theorem hostTurn_regs (s : State) : (hostTurn s).cpu.regs = s.cpu.regs := by
  unfold hostTurn
  split
  · rfl
  · exact deliver_regs _ _

theorem endLine_regs (s : State) : (endLine s).cpu.regs = s.cpu.regs := by
  unfold endLine
  split <;> rfl

theorem batchBoundary_regs (n : Nat) (a : Act) (s : State) : (batchBoundary n a s).cpu.regs = s.cpu.regs := by
  unfold batchBoundary
  split <;> rfl

theorem blitLine_regs {vc : Addr} {row : Nat} (h : blitLine vc row s = .next t) : t.cpu.regs = s.cpu.regs := by
  unfold blitLine at h
  split at h
  · cases h; rfl
  · cases h; rfl
  · cases h

theorem withTurns_regs (s : State) : (withTurns s).cpu.regs = s.cpu.regs := by
  unfold withTurns
  split <;> rfl

theorem batchStep_srOk {n : Nat} {a : Act} (h : batchStep n a s = .next t) (hs : SrOk s) : SrOk t := by
  unfold batchStep at h
  split at h
  · cases h; exact hs
  · split at h
    · cases h; exact hs
    · obtain ⟨u, h1, h2⟩ := andThen_next h
      cases h2
      have hu : SrOk u := coreStep_srOk (s := nextDraw s) h1 hs
      exact hu.of_regs (batchBoundary_regs _ _ _)

theorem beforeFrame_srOk (hs : SrOk s) : SrOk (beforeFrame s) := by
  unfold beforeFrame
  split
  · exact hs
  · split
    · show ReservedClear 0x2700#16
      unfold ReservedClear
      decide
    all_goals exact hs

theorem emulatorStep_srOk (h : emulatorStep s = .next t) (hs : SrOk s) : SrOk t := by
  unfold emulatorStep at h
  generalize s.loop.act = act at h
  cases act with
  | latch => cases h; exact beforeFrame_srOk hs
  | cpuMain | cpuTail => exact batchStep_srOk h hs
  | mfpMain | mfpTail => cases h; exact hs.of_regs (updateTimers_irq _ s).regs
  | acia =>
    dsimp only at h
    cases h
    have sync := (aciaSync_dev 512 s).regs
    split
    · exact hs.of_regs sync
    · exact hs.of_regs ((endLine_regs _).trans sync)
  | render =>
    obtain ⟨u, h1, h2⟩ := andThen_next h
    cases h2
    have blit := blitLine_regs h1
    exact hs.of_regs blit
  | eventTicks =>
    cases h
    exact hs.of_regs <| (endLine_regs _).trans <| (tickEvent_irq .b _).regs.trans (tickEvent_irq .a s).regs
  | complete => cases h; exact hs.of_regs (deliverAll_regs s.host.inbox _)
  | ymMain | ymTail | hbl | writeBack | advance | vbl | pace | ended => cases h; exact hs

/-- A step that goes on leaves a run that has ended, takes a turn, or runs a pending operation. -/
theorem step_next_cases (h : step s = .next t) :
    t = s ∨ takeTurn s = .next t ∨ ∃ (i : Instr) (rest : List Byte), exec i { s with ops := rest } = .next t := by
  unfold step at h
  split at h
  · cases h
  · split at h
    · cases h
    · split at h
      · cases h
      · split at h
        · cases h; exact .inl rfl
        · split at h
          · exact .inr (.inl h)
          · unfold runOps at h
            split at h
            · exact .inr (.inr ⟨_, _, h⟩)
            · cases h

theorem takeTurn_srOk (h : takeTurn s = .next t) (hs : SrOk s) : SrOk t := by
  unfold takeTurn at h
  dsimp only at h
  have h0 : SrOk (withTurns s) := hs.of_regs (withTurns_regs s)
  split at h
  · exact emulatorStep_srOk h h0
  · next ts _ =>
    have h1 : SrOk { withTurns s with host := { (withTurns s).host with turns := ts } } := h0
    split at h
    · exact emulatorStep_srOk h h1
    · cases h; exact h1.of_regs (hostTurn_regs _)
    · cases h; exact h1

end

/-- Settles O15: every value the core loads into SR has the reserved bits clear, and nothing else writes SR. -/
theorem stepKeepsReservedSrBits : Obligations.StepKeepsReservedSrBits := by
  intro s t hs h
  obtain rfl | turn | ⟨i, rest, ops⟩ := step_next_cases h
  · exact hs
  · exact takeTurn_srOk turn hs
  · exact exec_srOk (s := { s with ops := rest }) ops hs

end Sys2Proof

namespace Sys2Proof
open Machine

/-! ## The marks -/

/-- The marks of 10_state.md R65 are these. -/
def HasMarks (fs : List Fault) (r : Bool) (s : State) : Prop := s.faults = fs ∧ s.refused = r

theorem hasMarks_closed (fs : List Fault) (r : Bool) : Closed (HasMarks fs r) :=
  closed_of_sameView (fun h hs => ⟨h.faults.trans hs.1, h.refused.trans hs.2⟩)
    (loop := fun _ _ hs => hs)
    (row := fun _ _ _ hs => hs)
    (counter := fun _ hs => hs)
    (frameComplete := fun hs => hs)
    (warmReset := fun hs => hs)

theorem step_of_faults {s : State} {f : Fault} {fs : List Fault} (h : s.faults = f :: fs) : step s = .fault f := by
  unfold step
  rw [h]

theorem step_of_refused {s : State} (hf : s.faults = []) (hr : s.refused = true) :
    step s = .refused .markedRefused := by
  unfold step
  rw [hf, hr]
  rfl

/-- Settles O17: `step` looks at the marks first, and no primitive change touches them. -/
theorem markedStatesTakeNoStep : Obligations.MarkedStatesTakeNoStep :=
  ⟨fun _ _ _ => step_of_faults, fun _ => step_of_refused,
    fun s _ h => step_closed (hasMarks_closed s.faults s.refused) h ⟨rfl, rfl⟩⟩

/-! ## Power-on -/

theorem cpuReset_ssp (s : State) : (cpuReset s).cpu.regs.ssp = romLong (cpuReset s) 0 := rfl

theorem cpuReset_pc (s : State) : (cpuReset s).cpu.regs.pc = romLong (cpuReset s) 4 := rfl

theorem memFind_romCells_below {k i : Nat} (h : i < k) (bs : List Byte) : memFind (romCells k bs) i = none :=
  keysAbove_find (keysAbove_romCells h bs) (Nat.le_refl i)

theorem memFind_romCells_above {k i : Nat} (bs : List Byte) (h : k + bs.length ≤ i) :
    memFind (romCells k bs) i = none := by
  induction bs generalizing k with
  | nil => rfl
  | cons b t ih =>
    rw [List.length_cons] at h
    unfold romCells memFind
    rw [if_neg (by omega)]
    exact ih (by omega)

/-- The ROM's entry of an image byte is that byte. -/
theorem memFind_romCells (k : Nat) (bs : List Byte) (i : Nat) (h : i < bs.length) :
    memFind (romCells k bs) (k + i) = some bs[i] := by
  induction bs generalizing k i with
  | nil => cases h
  | cons b t ih =>
    unfold romCells memFind
    cases i with
    | zero => exact if_pos rfl
    | succ i =>
      rw [if_neg (by omega), show k + (i + 1) = k + 1 + i by omega]
      exact ih (k + 1) i (Nat.lt_of_succ_lt_succ h)

theorem storedByte_unlisted {s : State} {k : Nat} (h : memFind s.mem k = none) : storedByte s k = powerOnByte s k := by
  unfold storedByte
  rw [h]

/-- What a byte that nothing has written holds depends on the parameters and the RAM's generation alone. -/
theorem powerOnByte_congr {s t : State} (hp : t.params = s.params) (hg : t.ramGen = s.ramGen) (k : Nat) :
    powerOnByte t k = powerOnByte s k := by
  unfold powerOnByte
  rw [hp, hg]

section
variable {p : Config.Params} {image : List Byte} (d : Option Floppy) (hlen : image.length = tosBytes p)

theorem powerOn_romByte {i : Nat} (h : i < image.length) : romByte (powerOnState p image d) i = image[i] := by
  unfold romByte storedByte
  rw [show (powerOnState p image d).mem = romCells (tosBase p) image from rfl,
    show tosBase (powerOnState p image d).params = tosBase p from rfl, memFind_romCells _ _ _ h]

/-- A key that the ROM does not have is the one of a state in which nothing was written. -/
theorem powerOn_storedByte {k : Nat} (h : memFind (romCells (tosBase p) image) k = none) :
    storedByte (powerOnState p image d) k = powerOnByte { State.reset with params := p } k :=
  (storedByte_unlisted (s := powerOnState p image d) h).trans
    (powerOnByte_congr (s := { State.reset with params := p }) (t := powerOnState p image d) rfl rfl k)

theorem powerOn_ramByte {i : Nat} (h : i < ramBytes p) :
    storedByte (powerOnState p image d) i = storedByte { State.reset with params := p } i :=
  powerOn_storedByte d (memFind_romCells_below (Nat.lt_of_lt_of_le h (ramBytes_le p)) image)

include hlen

theorem powerOn_memOk : MemOk (powerOnState p image d) :=
  memWf_romCells image (by rw [hlen]; exact tosBase_le p)

theorem powerOn_ioByte (i : Nat) : ioByte (powerOnState p image d) i = 0 := by
  have hrom := tosBase_le p
  unfold ioByte
  rw [powerOn_storedByte d (memFind_romCells_above image (by omega))]
  exact if_pos (Nat.le_add_right ioBase i)

theorem eight_le_image_length : 8 ≤ image.length := by
  rw [hlen]
  unfold tosBytes
  cases p.tosSize <;> decide

theorem powerOn_romByte_low {i : Nat} (h : i < 8) : romByte (powerOnState p image d) i = image[i]! := by
  have hi : i < image.length := Nat.lt_of_lt_of_le h (eight_le_image_length hlen)
  rw [powerOn_romByte d hi, getElem!_pos image i hi]

theorem powerOn_peekByte_low {a : Addr} (h : a.toNat < 8) :
    peekByte (powerOnState p image d) a = image[a.toNat]! := by
  unfold peekByte
  rw [region_low h]
  exact powerOn_romByte_low d hlen h

/-- The core's longs at reset are the image's. -/
theorem powerOn_romLong {i : Nat} (h : i + 3 < 8) : romLong (powerOnState p image d) i
    = (image[i]! ++ image[i + 1]!) ++ (image[i + 2]! ++ image[i + 3]!) := by
  unfold romLong be32
  rw [powerOn_romByte_low d hlen (by omega), powerOn_romByte_low d hlen (by omega),
    powerOn_romByte_low d hlen (by omega), powerOn_romByte_low d hlen h]

end

/-- Settles O24: the only bytes listed at power-on are the image's, at the ROM's keys. -/
theorem powerOnLoadsTheImage : Obligations.PowerOnLoadsTheImage := by
  intro p image d hlen
  exact ⟨powerOn_memOk d hlen, fun _ => powerOn_romByte d, fun _ => powerOn_peekByte_low d hlen,
    fun _ => powerOn_ramByte d, fun i _ => powerOn_ioByte d hlen i,
    (cpuReset_ssp _).trans (powerOn_romLong d hlen (i := 0) (by decide)),
    (cpuReset_pc _).trans (powerOn_romLong d hlen (i := 4) (by decide)), rfl⟩

end Sys2Proof

namespace Sys2Proof
open Machine

/-! ## RTE and STOP in supervisor mode -/

theorem unlessUnwound_next {u : State} {f : State → Host.Outcome State Fault Refusal} (h : u.cpu.berr = false) :
    unlessUnwound (.next u) f = f u := by
  unfold unlessUnwound andThen
  simp only [h]
  rfl

/-- An untraced privileged instruction that supervisor mode runs ends with the words noted that the core may hold. -/
theorem privileged_next {s0 s u : State} {f : State → Host.Outcome State Fault Refusal}
    (hs : srS s.cpu.regs.sr = true) (ht : srT s0.cpu.regs.sr = false) (hf : f s = .next u)
    (hu : u.cpu.berr = false) : privileged s0 f s = .next (noteAhead s0 u) := by
  unfold privileged endInstruction
  rw [hs, if_pos rfl, hf, unlessUnwound_next hu, ht]
  rfl

/-- The return from a short frame in RAM (60_exceptions.md R463). -/
theorem returnFromException_ram {s : State} {b : Addr} (hb : b = busAddr s.cpu.regs.ssp)
    (he : s.cpu.regs.ssp.getLsbD 0 = false) (h : inRam s.params b 6) (hm : s.cpu.berr = false) :
    returnFromException s = .next { s with
      bus := longAt s (b.toNat + 2)
      cpu := { s.cpu with regs := { s.cpu.regs with
        ssp := s.cpu.regs.ssp + 6, sr := srValue (wordAt s b.toNat), pc := longAt s (b.toNat + 2) } } } := by
  obtain ⟨hl, hr⟩ := h
  have next : busAddr (s.cpu.regs.ssp + 2#32) = b + 2#24 := (busAddr_add _ 2).trans (by rw [hb])
  have nextNat : (b + 2#24).toNat = b.toNat + 2 := addr_add ⟨hl, hr⟩ 2 (by omega)
  have word : cpuRead .word s.cpu.regs.ssp false s = .next { s with bus := (wordAt s b.toNat).setWidth 32 } := by
    rw [cpuRead_word (p := s.params) rfl he (hb ▸ ⟨hl, by omega⟩), ← hb]
  have long (u : State) (hu : u.params = s.params) : cpuRead .long (s.cpu.regs.ssp + 2#32) false u
      = .next { u with bus := longAt u (b.toNat + 2) } := by
    have even : (s.cpu.regs.ssp + 2#32).getLsbD 0 = false := (even_add _ (n := 2) rfl).trans he
    rw [cpuRead_long hu even (by rw [next]; exact ⟨by omega, by omega⟩), next, nextNat]
  unfold returnFromException
  dsimp only
  rw [word, unlessUnwound_next (by exact hm), long { s with bus := (wordAt s b.toNat).setWidth 32 } rfl,
    unlessUnwound_next (by exact hm), BitVec.setWidth_setWidth_of_le _ (by omega), BitVec.setWidth_eq]
  rfl

/-- STOP with its operand in RAM (60_exceptions.md R467): SR is loaded, and the core stops after the instruction. -/
theorem coreStop_ram {s : State} {a : Addr} (ha : a = busAddr (s.cpu.ipc + 2#32)) (he : s.cpu.ipc.getLsbD 0 = false)
    (h : inRam s.params a 2) (fresh : ∀ e ∈ s.cpu.ahead, e.1 ≠ a) (hm : s.cpu.berr = false) :
    coreStop s = .next { s with
      bus := (wordAt s a.toNat).setWidth 32
      cpu := { s.cpu with
        stopped := true
        regs := { s.cpu.regs with pc := s.cpu.ipc + 4, sr := srValue (wordAt s a.toNat) } } } := by
  have even : (s.cpu.ipc + 2#32).getLsbD 0 = false := (even_add _ (n := 2) rfl).trans he
  unfold coreStop fetchWord
  rw [coreFetch_fresh (ha ▸ fresh), cpuRead_word (p := s.params) rfl even (ha ▸ h), ← ha,
    unlessUnwound_next (by exact hm), BitVec.setWidth_setWidth_of_le _ (by omega), BitVec.setWidth_eq]
  rfl

/-- RTE executed in supervisor mode, untraced, with its frame in RAM. -/
theorem coreExecute_rte {s : State} {b : Addr} (hir : s.cpu.ir = 0x4E73) (hS : srS s.cpu.regs.sr = true)
    (hT : srT s.cpu.regs.sr = false) (hm : s.cpu.berr = false) (hb : b = busAddr s.cpu.regs.ssp)
    (he : s.cpu.regs.ssp.getLsbD 0 = false) (h : inRam s.params b 6) :
    coreExecute s = .next { s with
      bus := longAt s (b.toNat + 2)
      cpu := { s.cpu with
        ahead := s.cpu.ahead.filter fun e => e.1 = busAddr (longAt s (b.toNat + 2))
          ∨ e.1 = busAddr (longAt s (b.toNat + 2)) + 2
        regs := { s.cpu.regs with
          ssp := s.cpu.regs.ssp + 6, sr := srValue (wordAt s b.toNat), pc := longAt s (b.toNat + 2) } } } := by
  have form : coreExecute s = privileged s returnFromException s := by
    unfold coreExecute
    rw [hir]
    rfl
  rw [form, privileged_next hS hT (returnFromException_ram hb he h hm) hm, noteAhead_same (by intro a; rfl)]
  rfl

/-- STOP executed in supervisor mode, untraced, with its operand in RAM. -/
theorem coreExecute_stop {s : State} {a : Addr} (hir : s.cpu.ir = 0x4E72) (hS : srS s.cpu.regs.sr = true)
    (hT : srT s.cpu.regs.sr = false) (hm : s.cpu.berr = false) (ha : a = busAddr (s.cpu.ipc + 2#32))
    (he : s.cpu.ipc.getLsbD 0 = false) (h : inRam s.params a 2) (fresh : ∀ e ∈ s.cpu.ahead, e.1 ≠ a) :
    coreExecute s = .next { s with
      bus := (wordAt s a.toNat).setWidth 32
      cpu := { s.cpu with
        stopped := true
        ahead := s.cpu.ahead.filter fun e => e.1 = busAddr (s.cpu.ipc + 4) ∨ e.1 = busAddr (s.cpu.ipc + 4) + 2
        regs := { s.cpu.regs with pc := s.cpu.ipc + 4, sr := srValue (wordAt s a.toNat) } } } := by
  have form : coreExecute s = privileged s coreStop s := by
    unfold coreExecute
    rw [hir]
    rfl
  rw [form, privileged_next hS hT (coreStop_ram ha he h fresh hm) hm, noteAhead_same (by intro a; rfl)]
  rfl

/-- The state in which an instruction executes, its first word `ir` fetched from RAM. -/
def firstFetched (ir : Half) (s : State) : State :=
  { s with
    draws := s.draws + 1
    bus := ir.setWidth 32
    cpu := { s.cpu with berr := false, ipc := s.cpu.regs.pc, ir := ir } }

theorem wordAt_firstFetched (ir : Half) (s : State) (k : Nat) : wordAt (firstFetched ir s) k = wordAt s k := rfl

theorem longAt_firstFetched (ir : Half) (s : State) (k : Nat) : longAt (firstFetched ir s) k = longAt s k := rfl

theorem coreStep_firstFetched {s : State} {pc : Addr} {ir : Half} (h0 : interruptAccepted s.cpu = false)
    (h1 : s.cpu.stopped = false) (he : s.cpu.regs.pc.getLsbD 0 = false) (hpc : pc = s.cpu.regs.pc.setWidth 24)
    (hin : inRam s.params pc 2) (fresh : ∀ e ∈ s.cpu.ahead, e.1 ≠ pc) (hir : wordAt s pc.toNat = ir) :
    coreStep s = coreExecute (firstFetched ir s) := by
  subst hpc hir
  exact coreStep_fetch h0 h1 he hin fresh

/-- Settles O53: the instruction word is fetched, the operation reads RAM alone, and the words the core may hold are
those it held. -/
theorem rteRestoresAndStopStops : Obligations.RteRestoresAndStopStops := by
  intro s pc hi hstop hS hT heven hpc fresh
  have run {ir : Half} (hin : inRam s.params pc 2) (hir : wordAt s pc.toNat = ir) :
      coreStep s = coreExecute (firstFetched ir s) :=
    coreStep_firstFetched hi hstop heven hpc hin (fun e he => (fresh e he).1) hir
  refine ⟨fun b hin hop hb hspe hstack => ?rte, fun hin hop => ?stop⟩
  case rte =>
    rw [run hin hop, coreExecute_rte (s := firstFetched 0x4E73 s) rfl hS hT rfl hb hspe hstack, longAt_firstFetched,
      wordAt_firstFetched]
    rfl
  case stop =>
    obtain ⟨hl, hr⟩ := hin
    have next : (pc + 2#24).toNat = pc.toNat + 2 := addr_add ⟨hl, hr⟩ 2 (by omega)
    have operand : pc + 2#24 = busAddr (s.cpu.regs.pc + 2#32) := by rw [hpc]; exact (busAddr_add _ 2).symm
    have hin2 : inRam s.params (pc + 2#24) 2 := ⟨by omega, by omega⟩
    have after : busAddr ((firstFetched 0x4E72 s).cpu.ipc + 4) = pc + 4 := by rw [hpc]; exact busAddr_add _ 4
    have after2 : pc + 4 + 2 = pc + 6 := BitVec.add_assoc ..
    rw [run ⟨hl, by omega⟩ hop, coreExecute_stop (s := firstFetched 0x4E72 s) rfl hS hT rfl operand heven hin2
      (fun e he => (fresh e he).2), wordAt_firstFetched, next, after, after2]
    rfl

end Sys2Proof

namespace Sys2Proof
open Machine

/-! ## What `step` does, once -/

/-- An unmarked state whose run has ended stays as it is; any other runs its pending operation, or a turn. -/
theorem step_of_unmarked {s : State} (h : Unmarked s) :
    step s = if hasEnded s then .next s else if s.ops.isEmpty then takeTurn s else runOps s := by
  obtain ⟨hf, hr, hp⟩ := h
  unfold step
  rw [hf, hr, hp]
  rfl

theorem step_of_ended {s : State} (h : Unmarked s) (ha : s.loop.act = .ended) : step s = .next s := by
  have he : hasEnded s = true := by unfold hasEnded; rw [ha]; rfl
  rw [step_of_unmarked h, he]
  rfl

theorem step_of_running {s : State} (h : Running s) :
    step s = if s.ops.isEmpty then takeTurn s else runOps s := by
  obtain ⟨hu, ha⟩ := h
  have he : hasEnded s = false := by unfold hasEnded; simpa using ha
  rw [step_of_unmarked hu, he]
  rfl

/-- With an operation pending, a state that runs executes it. -/
theorem step_of_decoded {s : State} {i : Instr} {rest : List Byte} (h : Running s)
    (hd : decode s.ops = .ok (i, rest)) : step s = exec i { s with ops := rest } := by
  have hops : s.ops.isEmpty = false := by
    cases e : s.ops with
    | nil => rw [e] at hd; cases hd
    | cons b t => rfl
  rw [step_of_running h, hops]
  unfold runOps
  rw [hd]
  rfl

/-- With nothing pending, a state that runs takes a turn. -/
theorem step_of_idle {s : State} (h : Running s) (ho : s.ops = []) : step s = takeTurn s := by
  rw [step_of_running h, ho]
  rfl

/-- With no turn listed, turns and host steps arrive, and the step is then that of the state they reached. -/
theorem takeTurn_arrives {s : State} (ht : s.host.turns = []) : takeTurn s = takeTurn (hostArrives s) := by
  have listed : withTurns (hostArrives s) = hostArrives s := by
    cases e : (hostArrives s).host.turns with
    | nil => rw [hostArrives_turns] at e; exact absurd e (by simp)
    | cons t ts => exact withTurns_listed e
  unfold takeTurn
  rw [withTurns_none ht, listed]

/-- The step of one agent (20_memory.md R101, R103). -/
def agentStep (u : State) : Config.Turn → Host.Outcome State Fault Refusal
  | .emulator => emulatorStep u
  | .host => .next (hostTurn u)
  | .audio n => .next (audioPull n u)

/-- With a turn listed, the first one is taken. -/
theorem takeTurn_listed {s : State} {t : Config.Turn} {ts : List Config.Turn} (h : s.host.turns = t :: ts) :
    takeTurn s = agentStep { s with host := { s.host with turns := ts } } t := by
  unfold takeTurn
  rw [withTurns_listed h]
  dsimp only
  rw [h]
  cases t <;> rfl

/-- Settles O2: the tests of `step`, in their order, and the first turn of the list. -/
theorem stepRunsTheDecodedOperation : Obligations.StepRunsTheDecodedOperation := by
  refine ⟨fun _ => step_of_ended, fun _ _ _ h hd _ => step_of_decoded h hd, fun s h ho => ⟨fun ht => ?_, ?_⟩⟩
  · have arrived : Running (hostArrives s) := h
    exact (step_of_idle h ho).trans ((takeTurn_arrives ht).trans (step_of_idle arrived ho).symm)
  · intro t ts u ht hu
    rw [step_of_idle h ho, takeTurn_listed ht, ← hu]
    cases t with
    | host => exact congrArg Host.Outcome.next (by unfold hostTurn; cases u.host.inbox <;> rfl)
    | emulator | audio n => rfl

/-! ## Reset -/

/-- Settles O20: each invariant, of the values of 10_state.md R67..R75. -/
theorem resetMeetsTheInvariants : Obligations.ResetMeetsTheInvariants := by
  have fb : VideoOk State.reset := warmReset_videoOk State.reset
  have params : validParams State.reset.params = true := by decide
  exact ⟨reset_memWf, ⟨rfl, rfl⟩, (mfpOk_iff _).2 resetMfp_timerRange, by unfold YmOk; decide, ⟨rfl, fun _ => rfl⟩, rfl,
    fb, by unfold SrOk; rfl, ⟨rfl, rfl, params⟩, by decide⟩

theorem resetYm_reg (n : BitVec 4) : ymReg resetYm n = if n = 7 then 0xFF else 0x00 := by
  revert n
  decide

theorem resetFb_black {row : List Word} (hr : row ∈ resetFb) {w : Word} (hw : w ∈ row) : w = 0xFF000000 := by
  rw [List.eq_of_mem_replicate hr] at hw
  exact List.eq_of_mem_replicate hw

/-- Settles O21: the reset values of R69..R74, register by register. -/
theorem resetDeviceValues : Obligations.ResetDeviceValues := by
  have timers : ∀ x : Timer, timerCounter resetMfp x = { cnt := 256, phase := 0 } := by
    intro x
    cases x <;> rfl
  refine ⟨rfl, ?mfp, ?ym, ?acia, ?wd, ?video⟩
  case mfp =>
    exact ⟨rfl, rfl, rfl, rfl, rfl, rfl, rfl, rfl, rfl, rfl, rfl, rfl, rfl, rfl, rfl, rfl, rfl, rfl, rfl,
      timers, rfl⟩
  case ym => exact ⟨resetYm_reg, rfl, rfl, rfl, rfl, rfl, rfl, rfl, rfl, rfl, rfl, rfl, rfl, rfl, rfl, rfl⟩
  case acia => exact ⟨rfl, rfl, rfl, rfl, rfl, rfl, rfl, rfl, rfl, rfl, rfl, rfl⟩
  case wd => exact ⟨rfl, rfl, rfl, rfl, rfl, rfl, rfl, rfl, rfl, rfl, rfl, rfl, rfl, rfl, rfl⟩
  case video => exact ⟨rfl, rfl, rfl, fun row hr w hw => resetFb_black hr hw⟩

/-- A ROM byte that nothing has written is the image's (10_state.md R67). -/
theorem powerOnByte_rom (s : State) {i : Nat} (h : i < tosBytes s.params) :
    powerOnByte s (tosBase s.params + i) = Config.tosByte i := by
  have hrom := tosBase_le s.params
  unfold powerOnByte
  rw [if_neg (by omega), if_pos (Nat.le_add_right _ _), Nat.add_sub_cancel_left]

theorem reset_peekByte_low {a : Addr} (h : a.toNat < 8) : peekByte State.reset a = Config.tosByte a.toNat := by
  unfold peekByte
  rw [region_low h]
  exact powerOnByte_rom State.reset (Nat.lt_trans h (by decide))

/-- Settles O22: SSP and PC are the first two longs of the ROM, which its mirror shows at 0 and 4. -/
theorem resetCoreValues : Obligations.ResetCoreValues := by
  have ssp : tosLong 0 = peekLong State.reset 0 := by
    unfold peekLong tosLong
    rw [reset_peekByte_low (by decide), reset_peekByte_low (by decide), reset_peekByte_low (by decide),
      reset_peekByte_low (by decide)]
    rfl
  have pc : tosLong 4 = peekLong State.reset 4 := by
    unfold peekLong tosLong
    rw [reset_peekByte_low (by decide), reset_peekByte_low (by decide), reset_peekByte_low (by decide),
      reset_peekByte_low (by decide)]
    rfl
  exact ⟨rfl, rfl, rfl, rfl, ssp, pc, rfl, rfl, rfl, rfl⟩

end Sys2Proof

namespace Sys2Proof
open Machine

/-! ## The ROM and the parameters

A primitive change of the block stores below RAM_SIZE or in the I/O page, and the ROM lies between; new draws for RAM
reach no key from TOS_BASE on. -/

theorem SameRom.refl (s : State) : SameRom s s := ⟨rfl, fun _ _ => rfl⟩

/-- What keeps the parameters and the bytes stored at the ROM's keys keeps the ROM. -/
theorem SameRom.of_storedByte {s0 s t : State} (hp : t.params = s.params)
    (hk : ∀ k, tosBase s.params ≤ k → k < ioBase → storedByte t k = storedByte s k) (hs : SameRom s0 s) :
    SameRom s0 t := by
  obtain ⟨hparams, hrom⟩ := hs
  refine ⟨hp.trans hparams, fun i hi => Eq.trans ?_ (hrom i hi)⟩
  have hend := tosBase_le s.params
  rw [← hparams] at hi
  unfold romByte
  rw [hp]
  exact hk _ (Nat.le_add_right _ _) (by omega)

/-- The bytes stored depend on the memory, the parameters and the RAM's generation alone. -/
theorem storedByte_congr {s t : State} (hp : t.params = s.params) (hm : t.mem = s.mem) (hg : t.ramGen = s.ramGen)
    (k : Nat) : storedByte t k = storedByte s k := by
  unfold storedByte
  rw [hm, powerOnByte_congr hp hg]

theorem SameRom.irq {s0 s t : State} (h : IrqFrame s t) (hs : SameRom s0 s) : SameRom s0 t :=
  hs.of_storedByte h.params fun k _ _ => storedByte_congr h.params h.mem h.ramGen k

theorem SameRom.setGpip {s0 s : State} (l : GpipLine) (b : Bool) (hs : SameRom s0 s) :
    SameRom s0 (Machine.setGpip l b s) := hs.irq (setGpip_irq l b s)

/-- A store to RAM or to the I/O page is none to the ROM (20_memory.md R82). -/
theorem SameRom.store {s0 s : State} {k : Nat} (v : Byte) (h : k < ramBytes s.params ∨ ioBase ≤ k)
    (hs : SameRom s0 s) : SameRom s0 (storeByte k v s) :=
  SameRom.of_storedByte (s := s) rfl (fun i hlow hhigh =>
    have hram := ramBytes_le s.params
    storedByte_storeByte_ne (by omega) v s) hs

/-- From TOS_BASE on, what a byte that nothing has written holds is the same in every generation of RAM's draws. -/
theorem powerOnByte_above {s t : State} (hp : t.params = s.params) {k : Nat} (h : tosBase s.params ≤ k) :
    powerOnByte t k = powerOnByte s k := by
  unfold powerOnByte
  rw [hp, if_pos h, if_pos h]

theorem SameRom.havocRam {s0 s : State} (hs : SameRom s0 s) : SameRom s0 (havocRam s) := by
  refine SameRom.of_storedByte (s := s) rfl (fun k hlow _ => ?_) hs
  have hmem : memFind (Machine.havocRam s).mem k = memFind s.mem k :=
    memFind_dropRam (Nat.le_trans (ramBytes_le _) hlow) s.mem
  unfold storedByte
  rw [hmem, powerOnByte_above (s := s) (t := Machine.havocRam s) rfl hlow]

/-- Of a WD1772 command only the DMA's stores and the havoc of RAM reach memory, and neither reaches the ROM (R96). -/
theorem commandWrite_sameRom {s0 s t : State} {c : Byte} (h : commandWrite c s = .next t) (hs : SameRom s0 s) :
    SameRom s0 t :=
  commandWrite_closed (P := SameRom s0)
    (wd := fun _ hs => hs)
    (gpip := fun l b hs => hs.setGpip l b)
    (disk := fun _ hs => hs)
    (draws := fun _ hs => hs)
    (store := fun _ v hk hs => hs.store v (.inl hk))
    (havoc := fun hs => hs.havocRam) h hs

theorem sameRom_coreClosed (s0 : State) : CoreClosed (SameRom s0) where
  cpu _ _ hs := hs
  bus _ hs := hs
  draws _ hs := hs
  store _ v hk hs := hs.store v hk
  gpip l b hs := hs.setGpip l b
  updateIrq hs := hs
  mfpWrite r v hs := hs.irq (mfpWrite_irq r v _)
  mfpIack hs := hs.irq (mfpIack_irq _)
  clearHbl hs := hs
  clearVbl hs := hs
  ymSelect _ hs := hs
  ymWriteData {s} v hs := by
    obtain ⟨y, w, e⟩ := ymWriteData_cases v s
    exact e ▸ hs
  aciaControl {s} v hs := by
    obtain ⟨a, e | e⟩ := aciaControlWrite_cases v s
    · exact e ▸ hs
    · exact e ▸ SameRom.setGpip (s := { s with acia := a }) _ _ hs
  aciaDataRead hs := SameRom.setGpip _ _ hs
  queue _ hs := hs
  ikbd _ hs := hs
  disk _ hs := hs
  wd _ _ _ hs := hs
  commandWrite := commandWrite_sameRom

theorem sameRom_closed (s0 : State) : Closed (SameRom s0) where
  toCoreClosed := sameRom_coreClosed s0
  ops _ hs := hs
  host _ hs := hs
  loop _ _ hs := hs
  updateTimers n hs := hs.irq (updateTimers_irq n _)
  tickEvent t hs := hs.irq (tickEvent_irq t _)
  raiseHbl hs := hs
  raiseVbl hs := hs
  ymSync _ hs := hs
  audioPull _ hs := hs
  aciaSync {s} n hs := by
    obtain ⟨a, e | e⟩ := aciaSync_cases n s
    · exact e ▸ hs
    · exact e ▸ SameRom.setGpip (s := { s with acia := a }) _ _ hs
  row _ _ _ hs := hs
  counter _ hs := hs
  frameComplete hs := hs
  warmReset hs := hs

/-- Settles O16: no primitive change of the block stores to the ROM or sets a parameter. -/
theorem stepKeepsRomAndParameters : Obligations.StepKeepsRomAndParameters :=
  fun s _ h => step_closed (sameRom_closed s) h (.refl s)

end Sys2Proof

namespace Sys2Proof
open Machine

/-! ## The accesses of the bus past its bus-error check (20_memory.md R84..R91) -/

section
variable {a : Addr} (s : State)

theorem memRead_of_noBusError {w : Width} (h : firstBusError w a = none) (prog : Bool) :
    memRead w a prog s = .next (answer (readRaw w a s).1 (readRaw w a s).2) := by
  unfold memRead
  rw [h]

theorem memWrite_of_noBusError {w : Width} (h : firstBusError w a = none) (v : Word) :
    memWrite w a v s = writeRaw w a v s := by
  unfold memWrite
  rw [h]

theorem busAccess_rd8 (h : firstBusError .byte a = none) :
    busAccess a .rd8 s = .next (answer8 (read8 a s).1 (read8 a s).2) := memRead_of_noBusError s h false

theorem busAccess_rd16 (h : firstBusError .word a = none) :
    busAccess a .rd16 s = .next (answer16 (read16 a s).1 (read16 a s).2) := memRead_of_noBusError s h false

theorem busAccess_rd32 (h : firstBusError .long a = none) :
    busAccess a .rd32 s = .next (answer (read32 a s).1 (read32 a s).2) := memRead_of_noBusError s h false

theorem busAccess_wr8 (h : firstBusError .byte a = none) (v : Byte) : busAccess a (.wr8 v) s = write8 a v s := by
  refine (memWrite_of_noBusError s h _).trans ?_
  show write8 a ((v.setWidth 32).setWidth 8) s = _
  rw [BitVec.setWidth_setWidth_of_le _ (by omega), BitVec.setWidth_eq]

theorem busAccess_wr16 (h : firstBusError .word a = none) (v : Half) : busAccess a (.wr16 v) s = write16 a v s := by
  refine (memWrite_of_noBusError s h _).trans ?_
  show write16 a ((v.setWidth 32).setWidth 16) s = _
  rw [BitVec.setWidth_setWidth_of_le _ (by omega), BitVec.setWidth_eq]

theorem busAccess_wr32 (h : firstBusError .long a = none) (v : Word) : busAccess a (.wr32 v) s = write32 a v s :=
  memWrite_of_noBusError s h v

/-- The read of a width, as an access. -/
theorem busAccess_readAccess (w : Width) : busAccess a (readAccess w) s = memRead w a false s := by
  cases w <;> rfl

/-- The write of a width, as an access. -/
theorem busAccess_writeAccess (w : Width) (v : Word) :
    busAccess a (writeAccess w v) s = memWrite w a (drawOfWidth w v) s := by
  cases w <;> rfl

end

/-! ## Rows of the table -/

/-- No bus-error unit for an access means no bus error (30_encoding.md R135). -/
theorem firstBusError_none_of_bind {w : Width} {a : Addr} (h : (firstBusError w a).bind berrUnit = none) :
    firstBusError w a = none := by
  cases e : firstBusError w a with
  | none => rfl
  | some b =>
    have unit : (berrUnit b).isSome = true := List.find?_some (p := fun b => (berrUnit b).isSome) e
    rw [e, Option.bind_some] at h
    rw [h] at unit
    cases unit

theorem ioReg_mem {a : Addr} {r : IoReg} (h : ioReg a = some r) : (a.toNat, r) ∈ ioRegTable ++ mfpRegTable := by
  unfold ioReg at h
  split at h
  · next x hx => cases h; exact List.mem_append_left _ (tableFind_mem hx)
  · exact List.mem_append_right _ (tableFind_mem h)

/-- The address of a claimed register, read off the two tables. -/
theorem ioReg_addr {a : Addr} {r : IoReg} {n : Nat} (h : ioReg a = some r)
    (hn : ∀ e ∈ ioRegTable ++ mfpRegTable, e.2 = r → e.1 = n) : a = BitVec.ofNat 24 n := by
  rw [← hn _ (ioReg_mem h) rfl, BitVec.ofNat_toNat, BitVec.setWidth_eq]

/-- The row of a claimed register's byte read answers what the device gives (20_memory.md R84). -/
theorem exec_decodeRead8 (r : IoReg) (s : State) :
    exec (decodeRead8 r) s = .next (answer8 (deviceRead8 r s).1 (deviceRead8 r s).2) := by
  cases r with
  | mfp m => cases m <;> rfl
  | fdcDataHi | fdcDataLo | dmaModeHi | dmaModeLo | dmaAddrHi | dmaAddrMid | dmaAddrLo | ymSelect | ymData
    | aciaControl | aciaData => rfl

/-- The row of a claimed register's byte write is the device's write (20_memory.md R87). -/
theorem exec_decodeWrite8 (v : Byte) (r : IoReg) (s : State) : exec (decodeWrite8 v r) s = deviceWrite8 r v s := by
  cases r with
  | mfp m => cases m <;> rfl
  | fdcDataHi | fdcDataLo | dmaModeHi | dmaModeLo | dmaAddrHi | dmaAddrMid | dmaAddrLo | ymSelect | ymData
    | aciaControl | aciaData => rfl

section
variable {a : Addr} {r : IoReg} (hr : ioReg a = some r) (s : State)
include hr

theorem read8_device : read8 a s = deviceRead8 r s := by
  rw [read8_io (ioReg_io hr), hr]

theorem write8_device (v : Byte) : write8 a v s = deviceWrite8 r v s := by
  rw [write8_io (ioReg_io hr), hr]

/-- An access that a claimed register has a row for is that row (20_memory.md R85, R88, R91). -/
theorem busAccess_decodeReg {acc : Access} {i : Instr} (hb : firstBusError (accessWidth acc) a = none)
    (hi : decodeReg r acc = .ok i) : busAccess a acc s = exec i s := by
  unfold decodeReg at hi
  cases acc with
  | rd8 =>
    cases hi
    rw [busAccess_rd8 s hb, read8_device hr, exec_decodeRead8]
  | wr8 v =>
    cases hi
    rw [busAccess_wr8 s hb, write8_device hr, exec_decodeWrite8]
  | rd16 =>
    rw [busAccess_rd16 s hb]
    dsimp only at hi
    split at hi
    · cases hi
      rw [ioReg_addr hr (n := 0xFF8604) (by decide)]
      show Host.Outcome.next (answer (((fdcRead s).1.setWidth 16).setWidth 32) (fdcRead s).2) = _
      rw [BitVec.setWidth_setWidth (by omega)]
      rfl
    · cases hi
      rw [ioReg_addr hr (n := 0xFF8606) (by decide)]
      rfl
    · cases hi
  | wr16 v =>
    rw [busAccess_wr16 s hb]
    dsimp only at hi
    split at hi
    · cases hi
      rw [ioReg_addr hr (n := 0xFF8604) (by decide)]
      rfl
    · cases hi
      rw [ioReg_addr hr (n := 0xFF8606) (by decide)]
      rfl
    · cases hi
  | rd32 => cases hi
  | wr32 v => cases hi

end

/-- The row of a named plain register is the access at its address (30_encoding.md R132). -/
theorem busAccess_decodePlain {a : Addr} {p : PlainReg} (h : tableFind plainRegTable a.toNat = some p) (acc : Access)
    (s : State) : busAccess a acc s = exec (decodePlain acc p) s := by
  have rows : ∀ e ∈ plainRegTable, busAccess (BitVec.ofNat 24 e.1) acc s = exec (decodePlain acc e.2) s := by
    unfold plainRegTable
    simp only [List.forall_mem_cons]
    exact ⟨rfl, rfl, rfl, rfl, rfl, rfl, rfl, rfl, List.forall_mem_nil _⟩
  have row := rows _ (tableFind_mem h)
  rwa [BitVec.ofNat_toNat, BitVec.setWidth_eq] at row

/-- A palette byte is at its offset from the palette's start (30_encoding.md R132). -/
theorem palette_addr {a : Addr} (h : isPalette a = true) : 0xFF8240#24 + (a.extractLsb' 0 5).setWidth 24 = a := by
  have high : a.toNat / 32 = 0xFF8240 / 32 := of_decide_eq_true h
  apply BitVec.eq_of_toNat_eq
  simp only [BitVec.toNat_add, BitVec.toNat_setWidth, BitVec.extractLsb'_toNat, BitVec.toNat_ofNat, Nat.shiftRight_zero]
  omega

/-- Settles O5: the branches of the decoder are those of the bus. -/
theorem busAccessRunsItsRow : Obligations.BusAccessRunsItsRow := by
  intro a acc i s h
  unfold decodeBus at h
  split at h
  · cases h
  split at h
  case h_1 u _ =>
    cases h
    cases u <;> rfl
  case h_2 hu =>
    split at h
    · next r hr => exact busAccess_decodeReg hr s (firstBusError_none_of_bind hu) h
    split at h
    · next p hp => cases h; exact busAccess_decodePlain hp acc s
    · cases h
      split
      · next hpal =>
        show _ = busAccess (0xFF8240#24 + (a.extractLsb' 0 5).setWidth 24) acc s
        rw [palette_addr hpal]
      · rfl

/-! ## Word and long accesses -/

section
variable {a : Addr} (s : State)

theorem write16_split (h4 : a ≠ 0xFF8604#24) (h6 : a ≠ 0xFF8606#24) (v : Half) :
    write16 a v s = andThen (write8 a (hi8 v) s) (write8 (a + 1) (lo8 v)) := by
  unfold write16
  rw [if_neg h4, if_neg h6]

theorem read16_split (h4 : a ≠ 0xFF8604#24) (h6 : a ≠ 0xFF8606#24) :
    read16 a s = (be16 (read8 a s).1 (read8 (a + 1) (read8 a s).2).1, (read8 (a + 1) (read8 a s).2).2) := by
  unfold read16
  rw [if_neg h4, if_neg h6]

/-- The byte read after another answers as if the first had left the bus alone. -/
theorem busAccess_rd8_answer (h : firstBusError .byte a = none) (v : Word) :
    busAccess a .rd8 (answer v s) = .next (answer8 (read8 a s).1 (read8 a s).2) := by
  obtain ⟨value, state⟩ := read8_answer a v s
  rw [busAccess_rd8 _ h, value, state]
  rfl

/-- The word read after another answers as if the first had left the bus alone. -/
theorem busAccess_rd16_answer (h : firstBusError .word a = none) (v : Word) :
    busAccess a .rd16 (answer v s) = .next (answer16 (read16 a s).1 (read16 a s).2) := by
  obtain ⟨value, state⟩ := read16_answer a v s
  rw [busAccess_rd16 _ h, value, state]
  rfl

end

/-- Settles O6: an access without a handler of its own is made of the next narrower ones, which see the same bytes. -/
theorem wideAccessesAreSplit : Obligations.WideAccessesAreSplit := by
  refine ⟨fun a v s hb h4 h6 => ?wr16, fun a v s hb => ?wr32, fun a s hb h4 h6 => ?rd16, fun a s hb => ?rd32⟩
  case wr16 =>
    obtain ⟨hb0, hb1⟩ := firstBusError_word hb
    rw [busAccess_wr16 s hb, busAccess_wr8 s hb0, write16_split s h4 h6]
    exact congrArg (andThen _) (funext fun u => (busAccess_wr8 u hb1 _).symm)
  case wr32 =>
    obtain ⟨hb0, hb2⟩ := firstBusError_long hb
    rw [busAccess_wr32 s hb, busAccess_wr16 s hb0]
    exact congrArg (andThen _) (funext fun u => (busAccess_wr16 u hb2 _).symm)
  case rd16 =>
    obtain ⟨hb0, hb1⟩ := firstBusError_word hb
    refine ⟨_, _, busAccess_rd8 s hb0, busAccess_rd8_answer _ hb1 _, ?_⟩
    rw [busAccess_rd16 s hb, read16_split s h4 h6]
    simp only [answer8, answer, low8]
    rfl
  case rd32 =>
    obtain ⟨hb0, hb2⟩ := firstBusError_long hb
    refine ⟨_, _, busAccess_rd16 s hb0, busAccess_rd16_answer _ hb2 _, ?_⟩
    rw [busAccess_rd32 s hb]
    simp only [answer16, answer, low16]
    rfl

/-! ## RAM, the ROM and the unmapped stretches -/

/-- No byte below the I/O page raises a bus error (20_memory.md R90). -/
theorem firstBusError_byte_low {a : Addr} (h : a.toNat < 0xFF8000) : firstBusError .byte a = none := by
  refine firstBusError_none fun b hb => ?_
  have same : b = a := by simpa [accessAddrs, widthBytes] using hb
  rwa [same]

theorem write8_rom {a : Addr} {s : State} {i : Nat} (h : region s.params a = .rom i) (v : Byte) :
    write8 a v s = .next s := by
  unfold write8
  rw [h]

theorem write8_unmapped {a : Addr} {s : State} (h : region s.params a = .unmapped) (v : Byte) :
    write8 a v s = .next s := by
  unfold write8
  rw [h]

theorem read8_unmapped {a : Addr} {s : State} (h : region s.params a = .unmapped) : read8 a s = (0xFF, s) := by
  unfold read8 peekByte
  rw [h]

/-- The ROM and its mirror (20_memory.md R82, R92). -/
theorem region_rom_of {p : Config.Params} {a : Addr}
    (h : a.toNat < 8 ∨ (tosBase p ≤ a.toNat ∧ a.toNat < tosBase p + tosBytes p)) :
    a.toNat < 0xFF8000 ∧ ∃ i, region p a = .rom i := by
  have hend : tosBase p + tosBytes p ≤ 0xFF8000 := tosBase_le p
  obtain hlow | ⟨h1, h2⟩ := h
  · exact ⟨by omega, _, region_low hlow⟩
  · exact ⟨by omega, _, region_rom h1 h2⟩

/-- Settles O7: the accesses of one and two bytes, region by region. -/
theorem ramRomAndUnmappedAccesses : Obligations.RamRomAndUnmappedAccesses := by
  refine ⟨fun a v s hs h => ?ramWord, fun a v s hs h => ?ramByte, fun a v s h => ?rom, fun a s h => ?mirror,
    fun a v s h => ?unmapped⟩
  case ramWord =>
    obtain ⟨hl, hr⟩ := h
    have hb : firstBusError .word a = none := firstBusError_ram hr
    have value : wordAt (storeHalf a.toNat v s) a.toNat = v := wordAt_storeHalf hs
    refine ⟨storeHalf a.toNat v s, (busAccess_wr16 s hb v).trans (write16_half rfl ⟨hl, hr⟩ v), value,
      storeHalf_frame a.toNat v s, fun k hk => storeHalf_ne v s (by omega), ?_⟩
    rw [busAccess_rd16 _ hb, read16_ram (s := storeHalf a.toNat v s) hl hr]
    exact congrArg (fun x : Half => Host.Outcome.next { storeHalf a.toNat v s with bus := x.setWidth 32 }) value
  case ramByte =>
    obtain ⟨hl, hr⟩ := h
    have hb : firstBusError .byte a = none := firstBusError_ram hr
    have value : storedByte (storeByte a.toNat v s) a.toNat = v := storedByte_storeByte_same hs _ _
    refine ⟨storeByte a.toNat v s, (busAccess_wr8 s hb v).trans (write8_ram hl hr v), value, rfl,
      fun k hk => storedByte_storeByte_ne hk v s, ?_⟩
    rw [busAccess_rd8 _ hb, read8_ram (s := storeByte a.toNat v s) hl hr, value]
    rfl
  case rom =>
    obtain ⟨hlow, i, hrom⟩ := region_rom_of h
    rw [busAccess_wr8 s (firstBusError_byte_low hlow), write8_rom hrom]
  case mirror =>
    unfold peekByte
    rw [region_low h]
  case unmapped =>
    have hregion := region_unmapped h
    have hend : tosBase s.params + tosBytes s.params ≤ 0xFF8000 := tosBase_le s.params
    have hb := firstBusError_byte_low (a := a) (by omega)
    rw [busAccess_rd8 s hb, busAccess_wr8 s hb, read8_unmapped hregion, write8_unmapped hregion]
    exact ⟨rfl, rfl⟩

end Sys2Proof

namespace Sys2Proof
open Machine

/-! ## Plain storage -/

/-- A byte address is plain storage in the I/O mirror (20_memory.md R89). -/
structure PlainByte (a : Addr) : Prop where
  io : 0xFF8000 ≤ a.toNat
  unclaimed : ioReg a = none
  noBusError : berrUnit a = none

theorem allPlain_iff {w : Width} {a : Addr} : allPlain w a = true ↔ ∀ b ∈ accessAddrs w a, PlainByte b := by
  unfold allPlain
  simp only [List.all_eq_true, Bool.and_eq_true, decide_eq_true_eq, Option.isNone_iff_eq_none]
  exact forall₂_congr fun b _ => ⟨fun ⟨⟨h1, h2⟩, h3⟩ => ⟨h1, h2, h3⟩, fun ⟨h1, h2, h3⟩ => ⟨⟨h1, h2⟩, h3⟩⟩

theorem firstBusError_of_allPlain {w : Width} {a : Addr} (h : allPlain w a = true) : firstBusError w a = none := by
  unfold firstBusError
  rw [List.find?_eq_none]
  intro b hb
  rw [(allPlain_iff.1 h b hb).noBusError]
  exact Bool.false_ne_true

theorem allPlain_byte {a : Addr} (h : allPlain .byte a = true) : PlainByte a :=
  allPlain_iff.1 h a (by simp [accessAddrs, widthBytes])

theorem allPlain_word_iff {a : Addr} : allPlain .word a = true ↔ PlainByte a ∧ PlainByte (a + 1) := by
  rw [allPlain_iff]
  simp [accessAddrs, widthBytes, List.range_succ]

theorem allPlain_long_iff {a : Addr} : allPlain .long a = true ↔
    PlainByte a ∧ PlainByte (a + 1) ∧ PlainByte (a + 2) ∧ PlainByte (a + 3) := by
  rw [allPlain_iff]
  simp [accessAddrs, widthBytes, List.range_succ]

/-- The second byte of a plain word follows the first with no wrap. -/
theorem allPlain_word {a : Addr} (h : allPlain .word a = true) :
    PlainByte a ∧ PlainByte (a + 1) ∧ (a + 1).toNat = a.toNat + 1 := by
  obtain ⟨b0, b1⟩ := allPlain_word_iff.1 h
  have io0 := b0.io
  have io1 := b1.io
  exact ⟨b0, b1, by bv_omega⟩

/-- The words of a plain long are plain, and the second follows the first with no wrap. -/
theorem allPlain_long {a : Addr} (h : allPlain .long a = true) :
    allPlain .word a = true ∧ allPlain .word (a + 2) = true ∧ (a + 2).toNat = a.toNat + 2 := by
  obtain ⟨b0, b1, b2, b3⟩ := allPlain_long_iff.1 h
  have io0 := b0.io
  have io2 := b2.io
  have fourth : a + 2 + 1 = a + 3 := BitVec.add_assoc ..
  exact ⟨allPlain_word_iff.2 ⟨b0, b1⟩, allPlain_word_iff.2 ⟨b2, fourth ▸ b3⟩, by bv_omega⟩

/-- The word handlers are at claimed addresses (20_memory.md R88). -/
theorem PlainByte.noWordHandler {a : Addr} (h : PlainByte a) : a ≠ 0xFF8604#24 ∧ a ≠ 0xFF8606#24 := by
  have free := h.unclaimed
  constructor <;> rintro rfl <;> cases free

/-- A value of a width stored at a key, big-endian (20_memory.md R83). -/
def storeValue : Width → Nat → Word → State → State
  | .byte, k, v, s => storeByte k (v.setWidth 8) s
  | .word, k, v, s => storeHalf k (v.setWidth 16) s
  | .long, k, v, s => storeLong k v s

section
variable (w : Width) (k : Nat) (v : Word) (s : State)

theorem storeValue_frame : storeValue w k v s = { s with mem := (storeValue w k v s).mem } := by
  cases w <;> rfl

theorem storeValue_ok (h : MemOk s) : MemOk (storeValue w k v s) := by
  cases w with
  | byte => exact storeByte_memWf h _ _
  | word => exact storeHalf_ok h
  | long => exact storeLong_ok h

theorem storeValue_sameBytes : SameBytesBut (fun i => k ≤ i ∧ i < k + widthBytes w) s (storeValue w k v s) := by
  intro i hi
  cases w with
  | byte => exact storedByte_storeByte_ne (by rintro rfl; exact hi ⟨Nat.le_refl _, Nat.lt_succ_self _⟩) _ _
  | word => exact storeHalf_ne _ _ (by simp only [widthBytes] at hi; omega)
  | long => exact storeLong_ne _ _ (by simp only [widthBytes] at hi; omega)

theorem storedValue_storeValue (h : MemOk s) : storedValue w (storeValue w k v s) k = drawOfWidth w v := by
  cases w with
  | byte => exact congrArg (BitVec.setWidth 32) (storedByte_storeByte_same h _ _)
  | word => exact congrArg (BitVec.setWidth 32) (wordAt_storeHalf h)
  | long => exact longAt_storeLong h

end

section
variable {a : Addr} (s : State)

theorem read8_plain (h : PlainByte a) : read8 a s = (storedByte s a.toNat, s) := by
  rw [read8_io h.io, h.unclaimed]

theorem write8_plain (h : PlainByte a) (v : Byte) : write8 a v s = .next (storeByte a.toNat v s) := by
  rw [write8_io h.io, h.unclaimed]

theorem read16_plain (h : allPlain .word a = true) : read16 a s = (wordAt s a.toNat, s) := by
  obtain ⟨h0, h1, next⟩ := allPlain_word h
  obtain ⟨h4, h6⟩ := h0.noWordHandler
  rw [read16_split s h4 h6, read8_plain s h0, read8_plain s h1, next]
  rfl

theorem write16_plain (h : allPlain .word a = true) (v : Half) : write16 a v s = .next (storeHalf a.toNat v s) := by
  obtain ⟨h0, h1, next⟩ := allPlain_word h
  obtain ⟨h4, h6⟩ := h0.noWordHandler
  rw [write16_split s h4 h6, write8_plain s h0]
  show write8 (a + 1) (lo8 v) _ = _
  rw [write8_plain _ h1, next]
  rfl

/-- A read of plain storage gives the value stored, and changes nothing. -/
theorem readRaw_plain {w : Width} (h : allPlain w a = true) : readRaw w a s = (storedValue w s a.toNat, s) := by
  cases w with
  | byte =>
    unfold readRaw
    dsimp only
    rw [read8_plain s (allPlain_byte h)]
    rfl
  | word =>
    unfold readRaw
    dsimp only
    rw [read16_plain s h]
    rfl
  | long =>
    obtain ⟨h0, h2, next⟩ := allPlain_long h
    unfold readRaw read32
    dsimp only
    rw [read16_plain s h0, read16_plain s h2, next]
    rfl

/-- A write of plain storage stores the value. -/
theorem writeRaw_plain {w : Width} (h : allPlain w a = true) (v : Word) :
    writeRaw w a (drawOfWidth w v) s = .next (storeValue w a.toNat v s) := by
  cases w with
  | byte =>
    show write8 a (((v.setWidth 8).setWidth 32).setWidth 8) s = _
    rw [BitVec.setWidth_setWidth_of_le _ (by omega), BitVec.setWidth_eq, write8_plain s (allPlain_byte h)]
    rfl
  | word =>
    show write16 a (((v.setWidth 16).setWidth 32).setWidth 16) s = _
    rw [BitVec.setWidth_setWidth_of_le _ (by omega), BitVec.setWidth_eq, write16_plain s h]
    rfl
  | long =>
    obtain ⟨h0, h2, next⟩ := allPlain_long h
    show andThen (write16 a (hi16 v) s) (write16 (a + 2) (lo16 v)) = _
    rw [write16_plain s h0]
    show write16 (a + 2) (lo16 v) _ = _
    rw [write16_plain _ h2, next]
    rfl

/-- A plain-storage row is the access at its address. -/
theorem exec_plainRows (off : BitVec 5) (acc : Access) {p : Instr × Addr} (hp : p ∈ plainRows off a acc) :
    exec p.1 s = busAccess p.2 acc s := by
  revert p
  unfold plainRows
  simp only [List.forall_mem_cons]
  exact ⟨rfl, rfl, rfl, rfl, rfl, rfl, rfl, rfl, rfl, rfl, List.forall_mem_nil _⟩

end

/-- The rows with an address of their own are plain at every width. -/
theorem allPlain_plainRows (off : BitVec 5) (w : Width) (acc : Access) :
    ∀ p ∈ plainRows off 0xFF8001 acc, allPlain w p.2 = true := by
  have palette : ∀ (o : BitVec 5) (w : Width), allPlain w (0xFF8240#24 + o.setWidth 24) = true := by
    intro o w
    revert o
    cases w <;> decide
  have rest : ∀ a ∈ [0xFF8001#24, 0xFF8201#24, 0xFF8203#24, 0xFF8205#24, 0xFF8207#24, 0xFF8209#24, 0xFF820A#24,
      0xFF8260#24], allPlain w a = true := by
    refine List.all_eq_true.1 ?_
    cases w <;> rfl
  unfold plainRows
  simp only [List.forall_mem_cons] at rest ⊢
  obtain ⟨h1, h2, h3, h4, h5, h6, h7, h8, hnil⟩ := rest
  exact ⟨h1, h2, h3, h4, h5, h6, h7, palette off w, h8, h1, List.forall_mem_nil _⟩

/-- Settles O43: the row is the access at its address, and no byte of it has a handler. -/
theorem plainRegisterReads : Obligations.PlainRegisterReads := by
  refine fun s off a w => ⟨fun p hp hplain => ?_, allPlain_plainRows off w (readAccess w)⟩
  rw [exec_plainRows s off _ hp, busAccess_readAccess, memRead_of_noBusError s (firstBusError_of_allPlain hplain),
    readRaw_plain s hplain]
  rfl

/-- Settles O44: the row is the access at its address, and no byte of it has a handler. -/
theorem plainRegisterWrites : Obligations.PlainRegisterWrites := by
  intro s off a w v hs p hp hplain
  refine ⟨storeValue w p.2.toNat v s, ?_, storeValue_frame w _ v s, storeValue_ok w _ v s hs,
    storeValue_sameBytes w _ v s, storedValue_storeValue w _ v s hs⟩
  rw [exec_plainRows s off _ hp, busAccess_writeAccess, memWrite_of_noBusError s (firstBusError_of_allPlain hplain),
    writeRaw_plain s hplain]

end Sys2Proof

namespace Sys2Proof
open Machine

/-! ## The group-0 frame on a stack in RAM (60_exceptions.md R452, R453) -/

section
variable {p : Config.Params} {a : Word} {s : State} (hp : s.params = p)
include hp

theorem frameWrite_word (h : inRam p (busAddr a) 2) (v : Half) :
    frameWrite .word a (v.setWidth 32) s = .next (storeHalf (busAddr a).toNat v s) := by
  unfold frameWrite
  rw [firstBusError_ram (p := p) h.2]
  show write16 (busAddr a) ((v.setWidth 32).setWidth 16) s = _
  rw [BitVec.setWidth_setWidth_of_le _ (by omega), BitVec.setWidth_eq, write16_half hp h]

theorem frameWrite_long (h : inRam p (busAddr a) 4) (v : Word) :
    frameWrite .long a v s = .next (storeLong (busAddr a).toNat v s) := by
  unfold frameWrite
  rw [firstBusError_ram (p := p) h.2]
  exact write32_long hp h v

end

theorem storeHalf_params (k : Nat) (v : Half) (s : State) : (storeHalf k v s).params = s.params := rfl

theorem storeLong_params (k : Nat) (v : Word) (s : State) : (storeLong k v s).params = s.params := rfl

/-- Two changes of memory alone are one. -/
theorem memFrame_trans {s t u : State} (h : t = { s with mem := t.mem }) (k : u = { t with mem := u.mem }) :
    u = { s with mem := u.mem } := by
  rw [h] at k
  exact k

/-- The 14 bytes of a group-0 frame stored at a key, in the order they are pushed. -/
def storeGroup0 (k : Nat) (access : Half) (addr : Word) (ir sr : Half) (pc : Word) (s : State) : State :=
  storeLong (k + 10) pc (storeHalf (k + 8) sr (storeHalf (k + 6) ir (storeLong (k + 2) addr (storeHalf k access s))))

/-- A group-0 frame stands at a key: the access word, the fault address, IR, SR and PC (60_exceptions.md R453). -/
structure Group0At (k : Nat) (access : Half) (addr : Word) (ir sr : Half) (pc : Word) (t : State) : Prop where
  access : wordAt t k = access
  addr : longAt t (k + 2) = addr
  ir : wordAt t (k + 6) = ir
  sr : wordAt t (k + 8) = sr
  pc : longAt t (k + 10) = pc

section
variable (k : Nat) (access : Half) (addr : Word) (ir sr : Half) (pc : Word) (s : State)

theorem storeGroup0_frame : storeGroup0 k access addr ir sr pc s
    = { s with mem := (storeGroup0 k access addr ir sr pc s).mem } :=
  memFrame_trans (memFrame_trans (memFrame_trans (memFrame_trans (storeHalf_frame _ _ _) (storeLong_frame _ _ _))
    (storeHalf_frame _ _ _)) (storeHalf_frame _ _ _)) (storeLong_frame _ _ _)

theorem storeGroup0_sameBytes :
    SameBytesBut (fun i => k ≤ i ∧ i < k + 14) s (storeGroup0 k access addr ir sr pc s) := by
  intro i hi
  unfold storeGroup0
  rw [storeLong_ne _ _ (by omega), storeHalf_ne _ _ (by omega), storeHalf_ne _ _ (by omega),
    storeLong_ne _ _ (by omega), storeHalf_ne _ _ (by omega)]

/-- Each field of the frame is there to be read: the later ones are stored above it. -/
theorem storeGroup0_at (h : MemOk s) :
    Group0At k access addr ir sr pc (storeGroup0 k access addr ir sr pc s) := by
  have ok0 : MemOk (storeHalf k access s) := storeHalf_ok h
  have ok2 : MemOk (storeLong (k + 2) addr (storeHalf k access s)) := storeLong_ok ok0
  have ok6 : MemOk (storeHalf (k + 6) ir (storeLong (k + 2) addr (storeHalf k access s))) := storeHalf_ok ok2
  unfold storeGroup0
  refine ⟨?access, ?addr, ?ir, ?sr, longAt_storeLong (storeHalf_ok ok6)⟩
  case access =>
    refine (wordAt_congr fun i h1 h2 => ?_).trans (wordAt_storeHalf h)
    rw [storeLong_ne _ _ (by omega), storeHalf_ne _ _ (by omega), storeHalf_ne _ _ (by omega),
      storeLong_ne _ _ (by omega)]
  case addr =>
    refine (longAt_congr fun i h1 h2 => ?_).trans (longAt_storeLong ok0)
    rw [storeLong_ne _ _ (by omega), storeHalf_ne _ _ (by omega), storeHalf_ne _ _ (by omega)]
  case ir =>
    refine (wordAt_congr fun i h1 h2 => ?_).trans (wordAt_storeHalf ok2)
    rw [storeLong_ne _ _ (by omega), storeHalf_ne _ _ (by omega)]
  case sr =>
    exact (wordAt_congr fun i h1 h2 => storeLong_ne _ _ (by omega)).trans (wordAt_storeHalf ok6)

end

/-- A field of a frame in RAM lies in RAM, at its offset. -/
theorem inRam_field {p : Config.Params} {ssp : Word} {n : Nat} (h : inRam p (busAddr ssp) n) {i m : Nat}
    (hi : i + m ≤ n) (hm : 0 < m) :
    inRam p (busAddr (ssp + BitVec.ofNat 32 i)) m
      ∧ (busAddr (ssp + BitVec.ofNat 32 i)).toNat = (busAddr ssp).toNat + i := by
  have at_i : (busAddr (ssp + BitVec.ofNat 32 i)).toNat = (busAddr ssp).toNat + i := by
    rw [busAddr_add, addr_add h i (by omega)]
  obtain ⟨hl, hr⟩ := h
  exact ⟨⟨by omega, by omega⟩, at_i⟩

/-- The push of the frame with its 14 bytes in RAM stores them, SSP lowered (60_exceptions.md R453). -/
theorem pushGroup0_eq {s u : State} {ssp : Word} (hssp : ssp = s.cpu.regs.ssp - 14#32) (he : ssp.getLsbD 0 = false)
    (h : inRam s.params (busAddr ssp) 14)
    (hu : u = setCore { s.cpu.regs with ssp := ssp } { s with draws := s.draws + 2 }) (addr : Addr) (rd prog : Bool)
    (sr0 : Half) :
    pushGroup0 addr rd prog sr0 s = .next (storeGroup0 (busAddr ssp).toNat
      (accessWord (Config.freeWord s.draws) rd prog (srS sr0)) (addr.setWidth 32) s.cpu.ir sr0
      (pushedPc (Config.freeWord (s.draws + 1)) s.cpu.ipc) u) := by
  obtain ⟨in2, at2⟩ := inRam_field h (i := 2) (m := 4) (by omega) (by omega)
  obtain ⟨in6, at6⟩ := inRam_field h (i := 6) (m := 2) (by omega) (by omega)
  obtain ⟨in8, at8⟩ := inRam_field h (i := 8) (m := 2) (by omega) (by omega)
  obtain ⟨in10, at10⟩ := inRam_field h (i := 10) (m := 4) (by omega) (by omega)
  obtain ⟨hl, hr⟩ := h
  have hp : u.params = s.params := by rw [hu]; rfl
  unfold pushGroup0 storeGroup0
  dsimp only
  rw [← hssp, he, if_neg Bool.false_ne_true, ← hu, frameWrite_word hp ⟨hl, by omega⟩]
  simp only [andThen]
  rw [frameWrite_long (by simp only [storeHalf_params, hp]) in2, at2]
  dsimp only
  rw [frameWrite_word (by simp only [storeHalf_params, storeLong_params, hp]) in6, at6]
  dsimp only
  rw [frameWrite_word (by simp only [storeHalf_params, storeLong_params, hp]) in8, at8]
  dsimp only
  rw [frameWrite_long (by simp only [storeHalf_params, storeLong_params, hp]) in10, at10]

/-- The push of the frame with its 14 bytes in RAM: what it leaves. -/
theorem pushGroup0_ram {s : State} {ssp : Word} (hssp : ssp = s.cpu.regs.ssp - 14#32) (he : ssp.getLsbD 0 = false)
    (h : inRam s.params (busAddr ssp) 14) (addr : Addr) (rd prog : Bool) (sr0 : Half) :
    ∃ t : State, pushGroup0 addr rd prog sr0 s = .next t
      ∧ t = { setCore { s.cpu.regs with ssp := ssp } { s with draws := s.draws + 2 } with mem := t.mem }
      ∧ SameBytesBut (fun k => (busAddr ssp).toNat ≤ k ∧ k < (busAddr ssp).toNat + 14) s t
      ∧ (MemOk s → Group0At (busAddr ssp).toNat (accessWord (Config.freeWord s.draws) rd prog (srS sr0))
          (addr.setWidth 32) s.cpu.ir sr0 (pushedPc (Config.freeWord (s.draws + 1)) s.cpu.ipc) t) := by
  obtain ⟨u, hu⟩ : ∃ u, u = setCore { s.cpu.regs with ssp := ssp } { s with draws := s.draws + 2 } := ⟨_, rfl⟩
  have same : ∀ k, storedByte u k = storedByte s k :=
    storedByte_congr (by rw [hu]; rfl) (by rw [hu]; rfl) (by rw [hu]; rfl)
  have ok (hs : MemOk s) : MemOk u := MemOk.of_mem (by rw [hu]; rfl) hs
  rw [← hu]
  exact ⟨_, pushGroup0_eq hssp he h hu addr rd prog sr0, storeGroup0_frame _ _ _ _ _ _ _,
    fun k hk => (storeGroup0_sameBytes _ _ _ _ _ _ _ k hk).trans (same k),
    fun hs => storeGroup0_at _ _ _ _ _ _ _ (ok hs)⟩

/-- The address the frame holds for PC is an even one of pc+2..pc+10 (60_exceptions.md R453). -/
theorem pushedPc_near (d ipc : Word) : (pushedPc d ipc).getLsbD 0 = false
    ∧ ∃ k, 2 ≤ k ∧ k ≤ 10 ∧ pushedPc d ipc = ipc + BitVec.ofNat 32 k := by
  have offset (c j : Nat) :
      ipc + BitVec.ofNat 32 c + 2#32 * BitVec.ofNat 32 j = ipc + BitVec.ofNat 32 (c + 2 * j) := by
    rw [BitVec.add_assoc, ← BitVec.ofNat_mul, ← BitVec.ofNat_add]
  have odd {n : Nat} (hn : n % 2 = 1) : (ipc + BitVec.ofNat 32 n).getLsbD 0 = !ipc.getLsbD 0 := by
    simp only [BitVec.getLsbD, BitVec.toNat_add, BitVec.toNat_ofNat, Nat.testBit_zero]
    rw [← decide_not, decide_eq_decide]
    omega
  unfold pushedPc
  cases hipc : ipc.getLsbD 0 with
  | true =>
    rw [if_pos rfl, offset 3]
    refine ⟨?_, _, ?_, ?_, rfl⟩
    · rw [odd (by omega), hipc]
      rfl
    · omega
    · omega
  | false =>
    rw [if_neg Bool.false_ne_true, offset 2]
    refine ⟨?_, _, ?_, ?_, rfl⟩
    · rw [even_add _ (by omega), hipc]
    · omega
    · omega

theorem append_and_low5 (x : BitVec 11) (y : BitVec 5) : (x ++ y) &&& 0x001F#16 = y.setWidth 16 := by
  have hy := y.isLt
  apply BitVec.eq_of_toNat_eq
  rw [BitVec.toNat_and, BitVec.toNat_append, ← Nat.shiftLeft_add_eq_or_of_lt hy, Nat.shiftLeft_eq]
  refine (Nat.and_two_pow_sub_one_eq_mod _ 5).trans ?_
  rw [BitVec.toNat_setWidth]
  omega

/-- The access word is its free bits above the five defined ones (60_exceptions.md R453). -/
theorem accessWord_eq (d : Word) (rd prog sup : Bool) : accessWord d rd prog sup
    = d.setWidth 11 ++ (BitVec.ofBool rd ++ BitVec.ofBool (!prog) ++ functionCode sup prog : BitVec 5) := by
  unfold accessWord
  rw [BitVec.append_assoc, BitVec.append_assoc, BitVec.append_assoc]
  rfl

/-- The defined bits of the access word of a data access: read or write, not an instruction, the function code. -/
theorem accessWord_data (d : Word) (rd sup : Bool) : accessWord d rd false sup &&& 0x001F#16
    = (if rd then 0x0018#16 else 0x0008#16) ||| (if sup then 5#16 else 1#16) := by
  rw [accessWord_eq, append_and_low5]
  cases rd <;> cases sup <;> rfl

/-! ## A taken bus error -/

section
variable {s : State} {a f : Addr} {w : Width} (hv : longAt s 8 ≠ 0) (hf : firstBusError w a = some f)

theorem exec_berrRows {acc : Access} {i : Instr} (hi : i ∈ berrRows a acc) (s : State) :
    exec i s = busAccess a acc s := by
  revert i
  unfold berrRows
  simp only [List.forall_mem_cons]
  exact ⟨rfl, rfl, rfl, List.forall_mem_nil _⟩

include hv hf

theorem memRead_takesBusError (prog : Bool) :
    memRead w a prog s = takeGroup0 f true prog (fun _ => longAt s 8) s := by
  unfold memRead busErrorRead
  rw [hf]
  exact if_neg hv

theorem memWrite_takesBusError (v : Word) :
    memWrite w a v s = takeGroup0 f false false (fun _ => longAt s 8) s := by
  unfold memWrite busErrorWrite
  rw [hf]
  exact if_neg hv

/-- With a vector set, each bus-error row takes the group-0 exception, a read or a write. -/
theorem berrRow_takesBusError (v : Word) {p : Instr × Bool}
    (hp : p ∈ (berrRows a (readAccess w)).map (fun i => (i, true))
      ++ (berrRows a (writeAccess w v)).map (fun i => (i, false))) :
    exec p.1 s = takeGroup0 f p.2 false (fun _ => longAt s 8) s := by
  obtain h | h := List.mem_append.1 hp
  · obtain ⟨i, hi, rfl⟩ := List.mem_map.1 h
    rw [exec_berrRows hi, busAccess_readAccess, memRead_takesBusError hv hf]
  · obtain ⟨i, hi, rfl⟩ := List.mem_map.1 h
    rw [exec_berrRows hi, busAccess_writeAccess, memWrite_takesBusError hv hf]

end

/-- TAKING A GROUP-0 EXCEPTION for a data access, on a supervisor stack in RAM (60_exceptions.md R452..R454). -/
theorem takeGroup0_ram {s : State} {b : Addr} (hb : b = busAddr (s.cpu.regs.ssp - 14#32))
    (he : s.cpu.regs.ssp.getLsbD 0 = false) (h : inRam s.params b 14) (hs : MemOk s) (f : Addr) (rd : Bool)
    (v : Word) :
    ∃ t : State, takeGroup0 f rd false (fun _ => v) s = .next t
      ∧ t = { s with
          mem := t.mem, draws := s.draws + 2
          cpu := { s.cpu with
            berr := true, ahead := []
            regs := { s.cpu.regs with
              ssp := s.cpu.regs.ssp - 14#32, sr := supervisorSr s.cpu.regs.sr, pc := v } } }
      ∧ SameBytesBut (fun k => b.toNat ≤ k ∧ k < b.toNat + 14) s t
      ∧ Group0At b.toNat (accessWord (Config.freeWord s.draws) rd false (srS s.cpu.regs.sr)) (f.setWidth 32) s.cpu.ir
          s.cpu.regs.sr (pushedPc (Config.freeWord (s.draws + 1)) s.cpu.ipc) t := by
  have even : (s.cpu.regs.ssp - 14#32).getLsbD 0 = false := (even_sub (n := 14) rfl).trans he
  obtain ⟨u, push, hu, hbytes, hframe⟩ := pushGroup0_ram (s := enterSupervisor s) (ssp := s.cpu.regs.ssp - 14#32) rfl
    even (hb ▸ h) f rd false s.cpu.regs.sr
  rw [← hb] at hbytes hframe
  have frame := hframe hs
  refine ⟨markBerr true (setPc v u), by unfold takeGroup0; rw [push]; rfl, ?_, hbytes,
    ⟨frame.access, frame.addr, frame.ir, frame.sr, frame.pc⟩⟩
  rw [show (markBerr true (setPc v u)).mem = u.mem from rfl]
  generalize u.mem = m at hu
  rw [hu]
  rfl

/-- Settles O46: the row takes the exception, and the frame's fields are the bytes it stored. -/
theorem busErrorsPushTheGroupZeroFrame : Obligations.BusErrorsPushTheGroupZeroFrame := by
  intro s a f w v b hs hv hf hb he h p hp
  obtain ⟨t, htake, ht, hbytes, frame⟩ := takeGroup0_ram hb he h hs f p.2 (longAt s 8)
  obtain ⟨even, near⟩ := pushedPc_near (Config.freeWord (s.draws + 1)) s.cpu.ipc
  refine ⟨t, (berrRow_takesBusError hv hf v hp).trans htake, ht, hbytes, ?_, frame.addr, frame.ir, frame.sr, ?_, ?_⟩
  · rw [frame.access, accessWord_data]
  · rw [frame.pc, even]
  · rw [frame.pc]
    exact near

end Sys2Proof

namespace Sys2Proof
open Machine

/-! ## The sectors of an image (43_wd1772_dma.md R319, R320) -/

theorem lba_eq (w : Wd) (d : Floppy) : lba w d = sectorIndex w d := by
  unfold lba sectorIndex
  push_cast
  rfl

/-- The selected sector lies in the image, from its offset on. -/
theorem sector_inside {w : Wd} {d : Floppy} (h : ¬ overruns w d) :
    0 ≤ sectorIndex w d ∧ (sectorIndex w d).toNat * d.bps + d.bps ≤ d.payload.length := by
  obtain ⟨hlow, hhigh⟩ := not_or.1 h
  have nonneg : 0 ≤ sectorIndex w d := by omega
  refine ⟨nonneg, ?_⟩
  rw [← Nat.succ_mul]
  zify
  rw [Int.toNat_of_nonneg nonneg]
  omega

theorem sectorOffset_of_inside {w : Wd} {d : Floppy} (h : ¬ overruns w d) :
    sectorOffset w d = some ((sectorIndex w d).toNat * d.bps) := by
  obtain ⟨nonneg, hend⟩ := sector_inside h
  unfold sectorOffset
  rw [lba_eq]
  refine if_neg ?_
  rw [Nat.succ_mul]
  omega

theorem sectorOffset_of_overruns {w : Wd} {d : Floppy} (h : overruns w d) : sectorOffset w d = none := by
  unfold sectorOffset
  rw [lba_eq]
  refine if_pos ?_
  obtain hlow | hhigh := h
  · exact .inl hlow
  · by_cases nonneg : 0 ≤ sectorIndex w d
    · right
      zify
      rwa [Int.toNat_of_nonneg nonneg]
    · exact .inl (by omega)

/-- Whether a sector lies in the image depends on the image's length, not on its bytes. -/
theorem overruns_payload {w : Wd} {d : Floppy} {p : List Byte} (h : p.length = d.payload.length) :
    overruns w { d with payload := p } ↔ overruns w d := by
  unfold overruns
  rw [show ({ d with payload := p } : Floppy).payload.length = d.payload.length from h]
  rfl

/-! ## One sector written (43_wd1772_dma.md R309, R321) -/

/-- The `n` bytes that `dma_get` returns from an address on. -/
def ramBlock (s : State) (a : Addr) (n : Nat) : List Byte :=
  (List.range n).map fun j => ramRead s (a + BitVec.ofNat 24 j)

theorem ramBlock_length (s : State) (a : Addr) (n : Nat) : (ramBlock s a n).length = n := by
  unfold ramBlock
  rw [List.length_map, List.length_range]

theorem ramBlock_byte (s : State) (a : Addr) {n j : Nat} (h : j < n) :
    (ramBlock s a n).getD j 0 = ramRead s (a + BitVec.ofNat 24 j) := by
  unfold ramBlock
  simp [h]

theorem dmaGetAll_bytes (n : Nat) (s : State) : (dmaGetAll n s).1 = ramBlock s s.wd.dmaAddr n := by
  refine List.ext_getElem ((dmaGetAll_length n s).trans (ramBlock_length s _ n).symm) fun j h1 h2 => ?_
  have hj : j < n := dmaGetAll_length n s ▸ h1
  have byte := (dmaGetAll_byte n s hj).trans (ramBlock_byte s s.wd.dmaAddr hj).symm
  rwa [List.getD_eq_getElem _ _ h1, List.getD_eq_getElem _ _ h2] at byte

/-- The image with the sector that `w` selects replaced by a block of bytes. -/
def withSector (w : Wd) (d : Floppy) (bs : List Byte) : List Byte :=
  (patchPayload d ((sectorIndex w d).toNat * d.bps) bs).payload

section
variable {w : Wd} {d : Floppy} {bs : List Byte} (h : ¬ overruns w d) (hbs : bs.length = d.bps)
include h hbs

theorem withSector_length : (withSector w d bs).length = d.payload.length := by
  obtain ⟨-, hend⟩ := sector_inside h
  exact patchPayload_length d _ bs (by omega)

theorem withSector_inside {j : Nat} (hj : j < d.bps) :
    (withSector w d bs).getD ((sectorIndex w d).toNat * d.bps + j) 0 = bs.getD j 0 := by
  obtain ⟨-, hend⟩ := sector_inside h
  unfold withSector
  rw [patchPayload_byte d _ bs (by omega), if_pos (by omega), Nat.add_sub_cancel_left]

theorem withSector_outside {k : Nat}
    (hk : k < (sectorIndex w d).toNat * d.bps ∨ (sectorIndex w d).toNat * d.bps + d.bps ≤ k) :
    (withSector w d bs).getD k 0 = d.payload.getD k 0 := by
  obtain ⟨-, hend⟩ := sector_inside h
  unfold withSector
  rw [patchPayload_byte d _ bs (by omega), if_neg (by omega)]

end

/-- `write_one()` of a sector the image holds. -/
theorem writeOne_of_inside {d : Floppy} {s : State} (h : ¬ overruns s.wd d) : writeOne d s = some { s with
    disk := some { d with payload := withSector s.wd d (ramBlock s s.wd.dmaAddr d.bps) }
    wd := { s.wd with dmaAddr := s.wd.dmaAddr + BitVec.ofNat 24 d.bps } } := by
  unfold writeOne
  rw [sectorOffset_of_inside h]
  dsimp only
  rw [dmaGetAll_frame, dmaGetAll_bytes]
  rfl

theorem writeOne_of_overruns {d : Floppy} {s : State} (h : overruns s.wd d) : writeOne d s = none := by
  unfold writeOne
  rw [sectorOffset_of_overruns h]

theorem driveDisk_driveA {s : State} (h : s.wd.drive = .driveA) : driveDisk s = s.disk := by
  unfold driveDisk
  rw [h]

/-- The state in which a command runs: the command byte latched, INTRQ released, BUSY set (43_wd1772_dma.md R310). -/
def commandBegun (c : Byte) (s : State) : State :=
  { withIrq (fdcLine s.params true s.mfp) s with
    wd := { s.wd with command := c, status := s.wd.status ||| 0x01#8 } }

theorem exec_fdcWriteSector (fl : BitVec 4) (s : State) :
    exec (.fdcWriteSector fl) s = .next (cmdWriteSector (commandBegun (0xA#4 ++ fl) s)) :=
  congrArg (fun u => Host.Outcome.next (cmdWriteSector u)) (wdBegin_eq _ s)

theorem exec_fdcWriteSectorMulti (fl : BitVec 4) (s : State) :
    exec (.fdcWriteSectorMulti fl) s = .next (cmdWriteMulti (commandBegun (0xB#4 ++ fl) s)) :=
  congrArg (fun u => Host.Outcome.next (cmdWriteMulti u)) (wdBegin_eq _ s)

/-- WRITE SECTOR single of a sector the image holds (43_wd1772_dma.md R321). -/
theorem cmdWriteSector_of_inside {s : State} {d : Floppy} (hdrive : s.wd.drive = .driveA) (hdisk : s.disk = some d)
    (hw : d.writeProtected = false) (h : ¬ overruns s.wd d) : cmdWriteSector s = finishWith 0x00 { s with
      disk := some { d with payload := withSector s.wd d (ramBlock s s.wd.dmaAddr d.bps) }
      wd := { s.wd with
        multi := false
        dmaCount := if s.wd.dmaCount = 0 then 0 else s.wd.dmaCount - 1
        dmaAddr := s.wd.dmaAddr + BitVec.ofNat 24 d.bps } } := by
  have seen : driveDisk (setMulti false s) = some d := (driveDisk_driveA (s := setMulti false s) hdrive).trans hdisk
  unfold cmdWriteSector
  dsimp only
  rw [seen]
  dsimp only
  rw [if_neg (by rw [hw]; exact Bool.false_ne_true), writeOne_of_inside (s := setMulti false s) h]
  rfl

/-- Settles O32: the patch of the image is the selected sector, and its bytes are those `dma_get` returned. -/
theorem writeSectorReplacesOneSector : Obligations.WriteSectorReplacesOneSector := by
  intro s fl d hdrive hdisk hw h
  have hlen := ramBlock_length s s.wd.dmaAddr d.bps
  refine ⟨withSector s.wd d (ramBlock s s.wd.dmaAddr d.bps), ?_, withSector_length h hlen,
    fun j hj => (withSector_inside h hlen hj).trans (ramBlock_byte s _ hj), fun k => withSector_outside h hlen⟩
  rw [exec_fdcWriteSector, cmdWriteSector_of_inside (s := commandBegun (0xA#4 ++ fl) s) hdrive hdisk hw h,
    finishWith_eq]
  rfl

/-! ## Many sectors written (43_wd1772_dma.md R318, R321) -/

/-- Blocks of one length at different multiples of it share no byte. -/
theorem blocks_apart {x y b j : Nat} (hne : x ≠ y) (hj : j < b) : x * b + j < y * b ∨ y * b + b ≤ x * b + j := by
  rw [← Nat.succ_mul]
  obtain hlt | hgt := Nat.lt_or_gt_of_ne hne
  · have room := Nat.mul_le_mul_right b hlt
    rw [Nat.succ_mul] at room
    omega
  · have room := Nat.mul_le_mul_right b hgt
    omega

/-- The WD1772 in the turn of sector `i` of a multiple command: its count, sector register and DMA address. -/
def atSector (d : Floppy) (w : Wd) (i : Nat) : Wd :=
  { w with
    dmaCount := w.dmaCount - BitVec.ofNat 8 i
    sector := sectorAfter d.spt w.sector i
    dmaAddr := w.dmaAddr + BitVec.ofNat 24 (i * d.bps) }

/-- The image's bytes after `n` sectors of a WRITE SECTOR multiple, each from the RAM bytes of its turn. -/
def payloadAfter (s : State) (d : Floppy) : Nat → List Byte
  | 0 => d.payload
  | i + 1 => withSector (atSector d s.wd i) { d with payload := payloadAfter s d i }
      (ramBlock s (atSector d s.wd i).dmaAddr d.bps)

/-- The state after `n` sectors of a WRITE SECTOR multiple. -/
def sectorsWritten (s : State) (d : Floppy) (n : Nat) : State :=
  { s with disk := some { d with payload := payloadAfter s d n }, wd := atSector d s.wd n }

theorem sectorsWritten_zero {s : State} {d : Floppy} (h : s.disk = some d) : sectorsWritten s d 0 = s := by
  unfold sectorsWritten atSector sectorAfter
  rw [Nat.zero_mul, BitVec.sub_zero, BitVec.add_zero]
  show { s with disk := some d } = s
  rw [← h]

/-- The start of a command moves neither the RAM bytes nor the sectors. -/
theorem payloadAfter_commandBegun (c : Byte) (s : State) (d : Floppy) (n : Nat) :
    payloadAfter (setMulti true (commandBegun c s)) d n = payloadAfter s d n := by
  induction n with
  | zero => rfl
  | succ n ih =>
    unfold payloadAfter
    rw [ih]
    rfl

section
variable {s : State} {d : Floppy} {n : Nat} (h : ∀ i, i < n → ¬ overruns (atSector d s.wd i) d)
include h

theorem payloadAfter_length : (payloadAfter s d n).length = d.payload.length := by
  induction n with
  | zero => rfl
  | succ n ih =>
    have before := ih fun i hi => h i (Nat.lt_succ_of_lt hi)
    have inside := (overruns_payload before).not.2 (h n (Nat.lt_succ_self n))
    exact (withSector_length inside (ramBlock_length s _ d.bps)).trans before

theorem inside_payloadAfter {i : Nat} (hi : i < n) :
    ¬ overruns (atSector d s.wd i) { d with payload := payloadAfter s d i } :=
  (overruns_payload (payloadAfter_length fun j hj => h j (Nat.lt_trans hj hi))).not.2 (h i hi)

/-- A byte of no sector written is the image's. -/
theorem payloadAfter_outside {k : Nat}
    (hk : ∀ i j, i < n → j < d.bps → k ≠ (sectorIndex (atSector d s.wd i) d).toNat * d.bps + j) :
    (payloadAfter s d n).getD k 0 = d.payload.getD k 0 := by
  induction n with
  | zero => rfl
  | succ n ih =>
    have inside := inside_payloadAfter h (Nat.lt_succ_self n)
    refine (withSector_outside inside (ramBlock_length s _ d.bps) ?_).trans
      (ih (fun i hi => h i (Nat.lt_succ_of_lt hi)) fun i j hi => hk i j (Nat.lt_succ_of_lt hi))
    by_contra hin
    rw [not_or, Nat.not_lt, Nat.not_le] at hin
    obtain ⟨hge, hlt⟩ := hin
    obtain ⟨j, rfl⟩ := Nat.exists_eq_add_of_le hge
    exact hk n j (Nat.lt_succ_self n) (Nat.lt_of_add_lt_add_left hlt) rfl

/-- Sectors with different numbers are apart in the image. -/
theorem sectors_apart {i i' j : Nat} (hi : i < n) (hi' : i' < n) (hj : j < d.bps)
    (hne : sectorAfter d.spt s.wd.sector i' ≠ sectorAfter d.spt s.wd.sector i) :
    (sectorIndex (atSector d s.wd i) d).toNat * d.bps + j < (sectorIndex (atSector d s.wd i') d).toNat * d.bps
      ∨ (sectorIndex (atSector d s.wd i') d).toNat * d.bps + d.bps
        ≤ (sectorIndex (atSector d s.wd i) d).toNat * d.bps + j := by
  obtain ⟨low, -⟩ := sector_inside (h i hi)
  obtain ⟨low', -⟩ := sector_inside (h i' hi')
  have number : (sectorAfter d.spt s.wd.sector i').toNat ≠ (sectorAfter d.spt s.wd.sector i).toNat :=
    fun e => hne (BitVec.eq_of_toNat_eq e)
  have index : (sectorIndex (atSector d s.wd i') d).toNat ≠ (sectorIndex (atSector d s.wd i) d).toNat := by
    have first (k : Nat) : sectorIndex (atSector d s.wd k) d = ((s.wd.head : Int) * d.sides + s.wd.side.toNat) * d.spt
        + ((sectorAfter d.spt s.wd.sector k).toNat - 1) := rfl
    have e := first i
    have e' := first i'
    omega
  exact blocks_apart index.symm hj

/-- A sector that no later turn writes again holds the RAM bytes of its turn. -/
theorem payloadAfter_inside {i j : Nat} (hi : i < n) (hj : j < d.bps)
    (hlast : ∀ i', i < i' → i' < n → sectorAfter d.spt s.wd.sector i' ≠ sectorAfter d.spt s.wd.sector i) :
    (payloadAfter s d n).getD ((sectorIndex (atSector d s.wd i) d).toNat * d.bps + j) 0
      = ramRead s (s.wd.dmaAddr + BitVec.ofNat 24 (i * d.bps + j)) := by
  induction n with
  | zero => omega
  | succ n ih =>
    have hlen := ramBlock_length s (atSector d s.wd n).dmaAddr d.bps
    have inside := inside_payloadAfter h (Nat.lt_succ_self n)
    obtain earlier | rfl := Nat.lt_or_eq_of_le (Nat.le_of_lt_succ hi)
    · have apart := sectors_apart h hi (Nat.lt_succ_self n) hj (hlast n earlier (Nat.lt_succ_self n))
      exact (withSector_outside inside hlen apart).trans
        (ih (fun i hi => h i (Nat.lt_succ_of_lt hi)) earlier fun i' h1 h2 => hlast i' h1 (Nat.lt_succ_of_lt h2))
    · refine (withSector_inside inside hlen hj).trans ((ramBlock_byte s _ hj).trans ?_)
      show ramRead s (s.wd.dmaAddr + BitVec.ofNat 24 (i * d.bps) + BitVec.ofNat 24 j) = _
      rw [BitVec.add_assoc, ← BitVec.ofNat_add]

end

section
variable {s : State} {d : Floppy} (hdrive : s.wd.drive = .driveA)
include hdrive

theorem driveDisk_sectorsWritten (i : Nat) :
    driveDisk (sectorsWritten s d i) = some { d with payload := payloadAfter s d i } :=
  driveDisk_driveA (s := sectorsWritten s d i) hdrive

/-- The turn of one sector. -/
theorem writeMany_turn {i : Nat} (h : ¬ overruns (atSector d s.wd i) { d with payload := payloadAfter s d i })
    (m : Nat) : writeMany (m + 1) (sectorsWritten s d i) = writeMany m (sectorsWritten s d (i + 1)) := by
  have turn : nextSector d.spt { sectorsWritten s d i with
      disk := some { d with payload := payloadAfter s d (i + 1) }
      wd := { atSector d s.wd i with dmaAddr := (atSector d s.wd i).dmaAddr + BitVec.ofNat 24 d.bps } }
      = sectorsWritten s d (i + 1) := by
    have count : s.wd.dmaCount - BitVec.ofNat 8 i - 1 = s.wd.dmaCount - BitVec.ofNat 8 (i + 1) := by
      rw [BitVec.ofNat_add, BitVec.sub_sub]
      rfl
    have addr : s.wd.dmaAddr + BitVec.ofNat 24 (i * d.bps) + BitVec.ofNat 24 d.bps
        = s.wd.dmaAddr + BitVec.ofNat 24 ((i + 1) * d.bps) := by
      rw [BitVec.add_assoc, ← BitVec.ofNat_add, ← Nat.succ_mul]
    unfold sectorsWritten
    generalize payloadAfter s d (i + 1) = p
    unfold atSector nextSector
    dsimp only
    rw [count, addr]
    rfl
  rw [writeMany, driveDisk_sectorsWritten hdrive]
  dsimp only
  rw [writeOne_of_inside (s := sectorsWritten s d i) h]
  exact congrArg (writeMany m) turn

theorem writeMany_turns {n : Nat} (h : ∀ i, i < n → ¬ overruns (atSector d s.wd i) d) (m : Nat) :
    writeMany (n + m) (sectorsWritten s d 0) = writeMany m (sectorsWritten s d n) := by
  induction n generalizing m with
  | zero => rw [Nat.zero_add]
  | succ n ih =>
    rw [Nat.succ_add_eq_add_succ, ih (fun i hi => h i (Nat.lt_succ_of_lt hi)),
      writeMany_turn hdrive (inside_payloadAfter h (Nat.lt_succ_self n))]

/-- The sectors of a WRITE SECTOR multiple: all of them, or those before the first that overruns. -/
theorem writeMany_eq (hdisk : s.disk = some d) {n c : Nat} (hn : n ≤ c)
    (h : ∀ i, i < n → ¬ overruns (atSector d s.wd i) d) (hend : n = c ∨ overruns (atSector d s.wd n) d) :
    writeMany c s = (decide (n = c), sectorsWritten s d n) := by
  obtain ⟨m, rfl⟩ := Nat.exists_eq_add_of_le hn
  have turns := writeMany_turns hdrive h m
  rw [sectorsWritten_zero hdisk] at turns
  rw [turns]
  cases m with
  | zero => rw [Nat.add_zero, decide_eq_true rfl]; rfl
  | succ m =>
    have last : overruns (sectorsWritten s d n).wd { d with payload := payloadAfter s d n } :=
      (overruns_payload (payloadAfter_length h)).2 (hend.resolve_left (by omega))
    rw [writeMany, driveDisk_sectorsWritten hdrive]
    dsimp only
    rw [writeOne_of_overruns last, decide_eq_false (by omega)]

/-- WRITE SECTOR multiple on a disk that is not protected (43_wd1772_dma.md R321). -/
theorem cmdWriteMulti_eq (hdisk : s.disk = some d) (hw : d.writeProtected = false) {n : Nat}
    (hn : n ≤ s.wd.dmaCount.toNat) (h : ∀ i, i < n → ¬ overruns (atSector d s.wd i) d)
    (hend : n = s.wd.dmaCount.toNat ∨ overruns (atSector d s.wd n) d) :
    cmdWriteMulti s = finishMany (decide (n = s.wd.dmaCount.toNat), sectorsWritten (setMulti true s) d n) := by
  have seen : driveDisk (setMulti true s) = some d := (driveDisk_driveA (s := setMulti true s) hdrive).trans hdisk
  unfold cmdWriteMulti
  dsimp only
  rw [seen]
  dsimp only
  rw [if_neg (by rw [hw]; exact Bool.false_ne_true)]
  exact congrArg finishMany (writeMany_eq (s := setMulti true s) hdrive hdisk hn h hend)

end

/-- How a multiple command ends, in one form for both cases (43_wd1772_dma.md R318). -/
theorem finishMany_eq (p : Prop) [Decidable p] (s : State) : finishMany (decide p, s)
    = { withIrq (fdcLine s.params false s.mfp) s with
      wd := { s.wd with
        status := if p then 0x00 else 0x10, dmaError := if p then s.wd.dmaError else true, multi := false } } := by
  unfold finishMany
  by_cases hp : p
  · simp only [hp, decide_true, if_true, finishWith_eq]
    rfl
  · simp only [hp, decide_false, Bool.false_eq_true, if_false, wdFail_eq]
    rfl

/-- Settles O33: the turns of the sectors one after another, each a patch of the image as the ones before left it. -/
theorem writeSectorMultipleReplacesTheCount : Obligations.WriteSectorMultipleReplacesTheCount := by
  intro s fl d n hdrive hdisk hw hn h hend
  have inside : ∀ i, i < n → ¬ overruns (atSector d s.wd i) d := h
  refine ⟨payloadAfter s d n, ?_, payloadAfter_length inside, fun i j => payloadAfter_inside inside,
    fun k => payloadAfter_outside inside⟩
  rw [exec_fdcWriteSectorMulti, cmdWriteMulti_eq (s := commandBegun (0xB#4 ++ fl) s) hdrive hdisk hw hn h hend,
    finishMany_eq]
  unfold sectorsWritten
  rw [payloadAfter_commandBegun]
  rfl

end Sys2Proof

namespace Sys2Proof
open Machine

/-! ## The frame of every operation (30_encoding.md R130; log 1) -/

theorem isUnclaimed_iff {a : Addr} {acc : Access} : isUnclaimed a acc = true ↔
    0xFF8000 ≤ a.toNat ∧ ioReg a = none ∧ tableFind plainRegTable a.toNat = none ∧ isPalette a = false
      ∧ firstBusError (accessWidth acc) a = none := by
  unfold isUnclaimed
  simp only [Bool.and_eq_true, decide_eq_true_eq, Option.isNone_iff_eq_none, Bool.not_eq_true', and_assoc]

theorem touchesBerr_iff {u : BerrUnit} {a : Addr} {acc : Access} : touchesBerr u a acc = true ↔
    0xFF8000 ≤ a.toNat ∧ (firstBusError (accessWidth acc) a).bind berrUnit = some u := by
  unfold touchesBerr
  simp only [Bool.and_eq_true, decide_eq_true_eq, beq_iff_eq]

/-- `FrameOf i bs`: `bs` is a frame of the space `i` is of, a bus transaction or a command of one of the four spaces of
log 1, and the row the decoder's table of that space has for it is `i`. -/
inductive FrameOf : Instr → List Byte → Prop where
  | bus {a : Addr} {acc : Access} {i : Instr} (hio : 0xFF8000 ≤ a.toNat) (row : decodeBus a acc = .ok i) :
    FrameOf i (busFrame a acc)
  | fdc {c : Byte} {i : Instr} (row : decodeFdc c = i) : FrameOf i (commandFrame c 1 [])
  | ikbd {c : Byte} {ps : List Byte} {i : Instr} (len : ikbdLen c = some (ps.length + 1))
    (row : ikbdInstr c.toNat ps = some i) : FrameOf i (commandFrame c 2 ps)
  | unknown {c : Byte} (len : ikbdLen c = none) : FrameOf (.unknownFirstByte c) (commandFrame c 2 [])
  | ym {c v : Byte} {i : Instr} (row : decodeYm (c.extractLsb' 0 4) v = i) : FrameOf i (commandFrame c 3 [v])
  | iack {c : Byte} {i : Instr} (row : decodeIack (c.extractLsb' 0 3) = .ok i) : FrameOf i (commandFrame c 4 [])

/-- An operation whose operands are ones its row has is encoded as a frame of its own space. -/
theorem frameOf_encode {i : Instr} (h : i.wellFormed = true) : FrameOf i (encode i) := by
  cases i with
  | fdcDmaDataRd16 | fdcDmaDataWr16 | fdcDmaDataHiRd8 | fdcDmaDataHiWr8 | fdcDmaDataLoRd8 | fdcDmaDataLoWr8
    | dmaStatusRd16 | dmaModeWr16 | dmaStatusHiRd8 | dmaModeHiWr8 | dmaStatusLoRd8 | dmaModeLoWr8 | dmaAddrHiRd8
    | dmaAddrHiWr8 | dmaAddrMidRd8 | dmaAddrMidWr8 | dmaAddrLoRd8 | dmaAddrLoWr8 | ymSelectWr8 | ymDataRd8 | ymDataWr8
    | ymFf8802Rd8 | mfpGpipRd8 | mfpGpipWr8 | mfpAerRd8 | mfpAerWr8 | mfpDdrRd8 | mfpDdrWr8 | mfpIeraRd8 | mfpIeraWr8
    | mfpIerbRd8 | mfpIerbWr8 | mfpIpraRd8 | mfpIpraWr8 | mfpIprbRd8 | mfpIprbWr8 | mfpIsraRd8 | mfpIsraWr8
    | mfpIsrbRd8 | mfpIsrbWr8 | mfpImraRd8 | mfpImraWr8 | mfpImrbRd8 | mfpImrbWr8 | mfpVrRd8 | mfpVrWr8 | mfpTacrRd8
    | mfpTacrWr8 | mfpTbcrRd8 | mfpTbcrWr8 | mfpTcdcrRd8 | mfpTcdcrWr8 | mfpTadrRd8 | mfpTadrWr8 | mfpTbdrRd8
    | mfpTbdrWr8 | mfpTcdrRd8 | mfpTcdrWr8 | mfpTddrRd8 | mfpTddrWr8 | aciaStatusRd8 | aciaControlWr8 | aciaDataRd8
    | aciaDataWr8 => exact .bus (by decide) rfl
  | mmuConfig acc | videoBaseHi acc | videoBaseMid acc | videoCounterHi acc | videoCounterMid acc | videoCounterLo acc
    | syncMode acc | resolution acc => exact .bus (by decide) (by cases acc <;> rfl)
  | fdcRestore | fdcSeek | fdcStep | fdcStepU | fdcStepIn | fdcStepInU | fdcStepOut | fdcStepOutU | fdcReadSector
    | fdcReadSectorMulti | fdcWriteSector | fdcWriteSectorMulti | fdcReadAddress | fdcForceInterrupt | fdcReadTrack
    | fdcWriteTrack => exact .fdc (by rw [decodeFdc, high_nibble, low_nibble]; rfl)
  | setMouseButtonAction | setRelativeMouse | setAbsoluteMouse | setMouseKeycodeMode | setMouseThreshold
    | setMouseScale | interrogateMousePosition | loadMousePosition | setYAtBottom | setYAtTop | resume | disableMouse
    | pauseOutput | setJoystickEventReporting | setJoystickInterrogationMode | joystickInterrogate
    | setJoystickMonitoring | setFireButtonMonitoring | setJoystickKeycodeMode | disableJoysticks | timeOfDayClockSet
    | interrogateTimeOfDayClock | memoryLoad | memoryRead | controllerExecute | ikbdReset | statusInquiry87
    | statusInquiry88 | statusInquiry89 | statusInquiry8A | statusInquiry8B | statusInquiry8C | statusInquiry8F
    | statusInquiry90 | statusInquiry92 | statusInquiry94 | statusInquiry95 | statusInquiry99 | statusInquiry9A =>
    exact .ikbd rfl rfl
  | ymToneAFine | ymToneACoarse | ymToneBFine | ymToneBCoarse | ymToneCFine | ymToneCCoarse | ymNoisePeriod
    | ymMixerEnable | ymLevelA | ymLevelB | ymLevelC | ymEnvPeriodFine | ymEnvPeriodCoarse | ymEnvShape | ymPortA
    | ymPortB => exact .ym rfl
  | iackL1 | iackL2 | iackL3 | iackL4 | iackL5 | iackL6 | iackL7 => exact .iack rfl
  | palette off acc => exact .bus (palette_row off).1 (decodeBus_palette off acc)
  | unclaimedIo a acc => exact .bus (isUnclaimed_iff.1 h).1 (decodeBus_unclaimed h)
  | berrSteDmaSound a acc | berrBlitter a acc | berrSteJoystick a acc =>
    exact .bus (touchesBerr_iff.1 h).1 (decodeBus_berr h)
  | unknownFirstByte c => exact .unknown (Option.isNone_iff_eq_none.1 h)

theorem decode_commandFrame (c sp : Byte) (ps rest : List Byte) :
    decode (commandFrame c sp ps ++ rest) = decodeCommand c sp (ps ++ rest) := rfl

/-- An IKBD command takes as many bytes as the length of its first byte says (R145). -/
theorem decodeIkbd_row {c : Byte} {ps : List Byte} {i : Instr} (len : ikbdLen c = some (ps.length + 1))
    (row : ikbdInstr c.toNat ps = some i) (rest : List Byte) : decodeIkbd c (ps ++ rest) = .ok (i, rest) := by
  have enough : ¬ (ps ++ rest).length < ps.length := by rw [List.length_append]; omega
  unfold decodeIkbd
  rw [len]
  dsimp only
  rw [Nat.add_sub_cancel, if_neg enough, List.take_left, row, List.drop_left]

theorem decodeIkbd_unknown {c : Byte} (len : ikbdLen c = none) (rest : List Byte) :
    decodeIkbd c rest = .ok (.unknownFirstByte c, rest) := by
  unfold decodeIkbd
  rw [len]

/-- The decoder reads the operation of a frame back, and leaves what follows it. -/
theorem FrameOf.decode_append {i : Instr} {bs : List Byte} (h : FrameOf i bs) (rest : List Byte) :
    decode (bs ++ rest) = .ok (i, rest) := by
  cases h with
  | bus hio row => exact decode_busFrame hio row rest
  | fdc row => rw [← row]; rfl
  | ikbd len row => exact (decode_commandFrame _ _ _ _).trans (decodeIkbd_row len row rest)
  | unknown len => exact (decode_commandFrame _ _ _ _).trans (decodeIkbd_unknown len rest)
  | ym row => rw [← row]; rfl
  | @iack c _ row =>
    show (decodeIack (c.extractLsb' 0 3)).map (fun i => (i, rest)) = _
    rw [row]
    rfl

/-- Settles O3: each operation is encoded as a frame of its own space, and the decoder tells the spaces apart. -/
theorem decodeOfEncodeIsTheOperation : Obligations.DecodeOfEncodeIsTheOperation :=
  fun _ rest h => (frameOf_encode h).decode_append rest

/-- Settles O1: the bytes written out are those the encoder gives the operations. -/
theorem framesDecodeToTheirRows : Obligations.FramesDecodeToTheirRows :=
  have back (i : Instr) (h : i.wellFormed = true) : decode (encode i) = .ok (i, []) := by
    rw [← decodeOfEncodeIsTheOperation i [] h, List.append_nil]
  ⟨back (.fdcDmaDataWr16 0x0080) rfl, back (.mfpTcdcrWr8 0x51) rfl, back .aciaDataRd8 rfl,
    back (.fdcReadSectorMulti 0x0) rfl, back (.ikbdReset 0x01) rfl, back (.ymEnvShape 0x0A) rfl, back .iackL6 rfl,
    back (.berrSteDmaSound 0xFF8900 .rd16) rfl, back (.palette 0 (.wr16 0x0777)) rfl⟩

/-! ## What the decoder accepts (30_encoding.md R130, R145, R150) -/

/-- What holds of every row of the IKBD tables holds of what they give (R145). -/
theorem ikbdInstr_induction {P : Nat → List Byte → Instr → Prop} (bare : ∀ e ∈ ikbdBare, P e.1 [] e.2)
    (one : ∀ p1, ∀ e ∈ ikbdOne p1, P e.1 [p1] e.2)
    (two : ∀ p1 p2, ∀ e ∈ ikbdTwo p1 p2, P e.1 [p1, p2] e.2)
    (three : ∀ p1 p2 p3, ∀ e ∈ ikbdThree p1 p2 p3, P e.1 [p1, p2, p3] e.2)
    (four : ∀ p1 p2 p3 p4, ∀ e ∈ ikbdFour p1 p2 p3 p4, P e.1 [p1, p2, p3, p4] e.2)
    (five : ∀ p1 p2 p3 p4 p5, ∀ e ∈ ikbdFive p1 p2 p3 p4 p5, P e.1 [p1, p2, p3, p4, p5] e.2)
    (six : ∀ p1 p2 p3 p4 p5 p6, ∀ e ∈ ikbdSix p1 p2 p3 p4 p5 p6, P e.1 [p1, p2, p3, p4, p5, p6] e.2)
    {c : Nat} {ps : List Byte} {i : Instr} (row : ikbdInstr c ps = some i) : P c ps i := by
  unfold ikbdInstr at row
  split at row
  · exact bare _ (tableFind_mem row)
  · exact one _ _ (tableFind_mem row)
  · exact two _ _ _ (tableFind_mem row)
  · exact three _ _ _ _ (tableFind_mem row)
  · exact four _ _ _ _ _ (tableFind_mem row)
  · exact five _ _ _ _ _ _ (tableFind_mem row)
  · exact six _ _ _ _ _ _ _ (tableFind_mem row)
  · cases row

theorem ikbdInstr_wellFormed {c : Nat} {ps : List Byte} {i : Instr} (row : ikbdInstr c ps = some i) :
    i.wellFormed = true :=
  ikbdInstr_induction (P := fun _ _ i => i.wellFormed = true) (List.all_eq_true.1 rfl)
    (fun _ => List.all_eq_true.1 rfl) (fun _ _ => List.all_eq_true.1 rfl) (fun _ _ _ => List.all_eq_true.1 rfl)
    (fun _ _ _ _ => List.all_eq_true.1 rfl) (fun _ _ _ _ _ => List.all_eq_true.1 rfl)
    (fun _ _ _ _ _ _ => List.all_eq_true.1 rfl) row

theorem decodeRead8_wellFormed (r : IoReg) : (decodeRead8 r).wellFormed = true := by
  cases r with
  | mfp m => cases m <;> rfl
  | fdcDataHi | fdcDataLo | dmaModeHi | dmaModeLo | dmaAddrHi | dmaAddrMid | dmaAddrLo | ymSelect | ymData
    | aciaControl | aciaData => rfl

theorem decodeWrite8_wellFormed (v : Byte) (r : IoReg) : (decodeWrite8 v r).wellFormed = true := by
  cases r with
  | mfp m => cases m <;> rfl
  | fdcDataHi | fdcDataLo | dmaModeHi | dmaModeLo | dmaAddrHi | dmaAddrMid | dmaAddrLo | ymSelect | ymData
    | aciaControl | aciaData => rfl

theorem decodeReg_wellFormed {r : IoReg} {acc : Access} {i : Instr} (h : decodeReg r acc = .ok i) :
    i.wellFormed = true := by
  unfold decodeReg at h
  cases acc with
  | rd8 => cases h; exact decodeRead8_wellFormed r
  | wr8 v => cases h; exact decodeWrite8_wellFormed v r
  | rd16 | wr16 v => dsimp only at h; split at h <;> cases h <;> rfl
  | rd32 | wr32 v => cases h

/-- The branches of the bus decode are the conditions of the rows' operands (20_memory.md R88..R90). -/
theorem decodeBus_wellFormed {a : Addr} {acc : Access} {i : Instr} (h : decodeBus a acc = .ok i) :
    i.wellFormed = true := by
  unfold decodeBus at h
  split at h
  · cases h
  next hio =>
    have hio := Nat.le_of_not_lt hio
    split at h
    next u hu =>
      have touches := touchesBerr_iff.2 ⟨hio, hu⟩
      cases h
      cases u <;> exact touches
    next hu =>
      split at h
      · exact decodeReg_wellFormed h
      next hreg =>
        split at h
        next p _ => cases h; cases p <;> rfl
        next hplain =>
          cases h
          split
          · rfl
          next hpal =>
            exact isUnclaimed_iff.2 ⟨hio, hreg, hplain, Bool.eq_false_iff.2 hpal, firstBusError_none_of_bind hu⟩

theorem decodeFdc_wellFormed (c : Byte) : (decodeFdc c).wellFormed = true := by
  unfold decodeFdc
  dsimp only
  split <;> rfl

theorem decodeYm_wellFormed (n : BitVec 4) (v : Byte) : (decodeYm n v).wellFormed = true := by
  unfold decodeYm
  split <;> rfl

theorem decodeIack_wellFormed {l : BitVec 3} {i : Instr} (h : decodeIack l = .ok i) : i.wellFormed = true := by
  unfold decodeIack at h
  split at h <;> cases h <;> rfl

/-- What a decoder of frames may answer for the bytes `bs`: a well-formed operation, and of `bs` what comes after it. -/
def Reads (bs : List Byte) (i : Instr) (rest : List Byte) : Prop := i.wellFormed = true ∧ rest <:+ bs

theorem decodeIkbd_reads {c : Byte} {bs rest : List Byte} {i : Instr} (h : decodeIkbd c bs = .ok (i, rest)) :
    Reads bs i rest := by
  unfold decodeIkbd at h
  split at h
  next len => cases h; exact ⟨Option.isNone_iff_eq_none.2 len, List.suffix_rfl⟩
  · split at h
    · cases h
    · split at h
      next row => cases h; exact ⟨ikbdInstr_wellFormed row, List.drop_suffix _ _⟩
      · cases h

theorem decodeIack_reads {l : BitVec 3} {bs rest : List Byte} {i : Instr}
    (h : (decodeIack l).map (fun i => (i, bs)) = .ok (i, rest)) : Reads bs i rest := by
  cases e : decodeIack l with
  | error _ => rw [e] at h; cases h
  | ok j => rw [e] at h; cases h; exact ⟨decodeIack_wellFormed e, List.suffix_rfl⟩

theorem decodeFdc_reads {c : Byte} {bs rest : List Byte} {i : Instr}
    (h : Except.ok (ε := DecodeError) (decodeFdc c, bs) = .ok (i, rest)) : Reads bs i rest := by
  cases h
  exact ⟨decodeFdc_wellFormed c, List.suffix_rfl⟩

theorem decodeUntagged_reads {c : Byte} {bs rest : List Byte} {i : Instr}
    (h : decodeUntagged c bs = .ok (i, rest)) : Reads bs i rest := by
  unfold decodeUntagged at h
  split at h
  · exact decodeIkbd_reads h
  · split at h
    · exact decodeIack_reads h
    · exact decodeFdc_reads h

theorem decodeCommand_reads {c sp : Byte} {bs rest : List Byte} {i : Instr}
    (h : decodeCommand c sp bs = .ok (i, rest)) : Reads bs i rest := by
  unfold decodeCommand at h
  split at h
  · exact decodeUntagged_reads h
  · exact decodeFdc_reads h
  · exact decodeIkbd_reads h
  · cases h; exact ⟨decodeYm_wellFormed _ _, List.suffix_cons _ _⟩
  · cases h
  · exact decodeIack_reads h
  · cases h

theorem decodeAccess_suffix {a : Addr} {k : Byte} {bs rest : List Byte} {acc : Access}
    (h : decodeAccess a k bs = .ok (acc, rest)) : rest <:+ bs := by
  unfold decodeAccess at h
  split at h <;> cases h
  case h_5 => exact List.suffix_cons _ _
  case h_6 => exact List.suffix_append [_, _] rest
  case h_7 => exact List.suffix_append [_, _, _, _] rest
  all_goals exact List.suffix_rfl

theorem decodeBusFrame_reads {a : Addr} {bs rest : List Byte} {i : Instr}
    (h : decodeBusFrame a bs = .ok (i, rest)) : Reads bs i rest := by
  unfold decodeBusFrame at h
  split at h
  · cases h
  · split at h
    · cases h
    next acc t hacc =>
      split at h
      · cases h
      next hi =>
        cases h
        exact ⟨decodeBus_wellFormed hi, (decodeAccess_suffix hacc).trans (List.suffix_cons _ _)⟩

/-- Every operation has three bytes at least: the decoder reads them to tell the spaces apart. -/
theorem decode_reads {bs rest : List Byte} {i : Instr} (h : decode bs = .ok (i, rest)) :
    ∃ b0 b1 b2 t, bs = b0 :: b1 :: b2 :: t ∧ Reads t i rest := by
  unfold decode at h
  split at h
  next b0 b1 b2 t =>
    refine ⟨b0, b1, b2, t, rfl, ?_⟩
    split at h
    · exact decodeBusFrame_reads h
    · split at h
      · exact decodeCommand_reads h
      · cases h
  · cases h

/-- Settles O4: every branch of the decoder answers a well-formed operation and a rest of its bytes. -/
theorem decodedOperationsAreWellFormed : Obligations.DecodedOperationsAreWellFormed := by
  intro bs i rest h
  obtain ⟨b0, b1, b2, t, rfl, wellFormed, used, rfl⟩ := decode_reads h
  exact ⟨wellFormed, b0 :: b1 :: b2 :: used, List.cons_ne_nil _ _, rfl⟩

/-! ## The IKBD commands (44_acia_ikbd.md R370..R377) -/

/-- The state with `cmd` in the command-assembly buffer (R370). -/
def withCmd (cmd : List Byte) (s : State) : State := { s with ikbd := { s.ikbd with cmd := cmd } }

/-- What a command does is the same whatever the assembly buffer held. -/
theorem clearCmd_ikbdExecute_withCmd (cmd pre : List Byte) (s : State) :
    clearCmd (ikbdExecute cmd (withCmd pre s)) = clearCmd (ikbdExecute cmd s) := by
  cases cmd with
  | nil => rfl
  | cons f ps =>
    unfold ikbdExecute ikbdResetCmd
    dsimp only
    split_ifs <;> rfl

/-- A byte of a command is kept, and the last one runs the command (R370). -/
theorem ikbdReceive_withCmd {s : State} {c : Byte} {n : Nat} (len : ikbdLenOf s.params c = some n)
    {pre cmd : List Byte} {b : Byte} (e : pre ++ [b] = c :: cmd) :
    ikbdReceive b (withCmd pre s)
      = if (c :: cmd).length = n then clearCmd (ikbdExecute (c :: cmd) s) else withCmd (c :: cmd) s := by
  have buffer : (withCmd pre s).ikbd.cmd ++ [b] = c :: cmd := e
  have len' : ikbdLenOf (withCmd pre s).params c = some n := len
  unfold ikbdReceive
  rw [buffer]
  dsimp only
  rw [List.headD_cons, len']
  dsimp only
  rw [clearCmd_ikbdExecute_withCmd]
  rfl

/-- A first byte outside the length table is dropped (R370). -/
theorem ikbdReceive_unknown {s : State} {c : Byte} (len : ikbdLenOf s.params c = none) (empty : s.ikbd.cmd = []) :
    ikbdReceive c s = clearCmd s := by
  have buffer : s.ikbd.cmd ++ [c] = [c] := congrArg (· ++ [c]) empty
  unfold ikbdReceive
  rw [buffer]
  dsimp only
  rw [List.headD_cons, len]

theorem writeAcia_cons (b : Byte) (bs : List Byte) (s : State) :
    writeAcia (b :: bs) s = writeAcia bs (ikbdReceive b s) := rfl

/-- The bytes of a command after those in the buffer, written one by one, run it (R363, R370). -/
theorem writeAcia_command {s : State} {c : Byte} {ps : List Byte}
    (len : ikbdLenOf s.params c = some (ps.length + 1)) {bs pre : List Byte} (hbs : bs ≠ [])
    (e : pre ++ bs = c :: ps) :
    writeAcia bs (withCmd pre s) = .next (clearCmd (ikbdExecute (c :: ps) s)) := by
  induction bs generalizing pre with
  | nil => exact absurd rfl hbs
  | cons b bs ih =>
    rw [writeAcia_cons]
    cases bs with
    | nil =>
      rw [ikbdReceive_withCmd len e, if_pos List.length_cons]
      rfl
    | cons b' bs =>
      obtain ⟨qs, hq, hps⟩ : ∃ qs, pre ++ [b] = c :: qs ∧ ps = qs ++ b' :: bs := by
        cases pre with
        | nil => cases e; exact ⟨[], rfl, rfl⟩
        | cons f pre => cases e; exact ⟨pre ++ [b], rfl, (List.append_assoc pre [b] _).symm⟩
      have more : (c :: qs).length ≠ ps.length + 1 := by
        rw [hps, List.length_append, List.length_cons, List.length_cons]; omega
      rw [ikbdReceive_withCmd len hq, if_neg more]
      exact ih (List.cons_ne_nil _ _) (congrArg (c :: ·) hps.symm)

/-- A row as an operation of its own is the completion of its command (R371..R377; log 26). -/
theorem exec_ikbdInstr {c : Byte} {ps : List Byte} {i : Instr} (row : ikbdInstr c.toNat ps = some i) (s : State) :
    exec i s = .next (clearCmd (ikbdExecute (c :: ps) s)) := by
  have rows := ikbdInstr_induction
    (P := fun n ps i => exec i s = .next (clearCmd (ikbdExecute (BitVec.ofNat 8 n :: ps) s)))
    (fun _ h => by fin_cases h <;> rfl)
    (fun _ _ h => by fin_cases h <;> rfl)
    (fun _ _ _ h => by fin_cases h <;> rfl)
    (fun _ _ _ _ h => by fin_cases h; rfl)
    (fun _ _ _ _ _ h => by fin_cases h; rfl)
    (fun _ _ _ _ _ _ h => by fin_cases h; rfl)
    (fun _ _ _ _ _ _ _ h => by fin_cases h <;> rfl) row
  rwa [BitVec.ofNat_toNat, BitVec.setWidth_eq] at rows

/-- Of the frames, those of the IKBD's space are its commands' alone: a bus transaction's third byte is 0xFF, not 0. -/
theorem FrameOf.of_ikbd {i : Instr} {bs : List Byte} (h : FrameOf i bs) {c : Byte} {ps : List Byte}
    (e : bs = commandFrame c 2 ps) :
    (ikbdLen c = some (ps.length + 1) ∧ ikbdInstr c.toNat ps = some i)
      ∨ (ikbdLen c = none ∧ ps = [] ∧ i = .unknownFirstByte c) := by
  cases h with
  | @bus a acc _ hio row =>
    have top : a.extractLsb' 16 8 = 0 := Option.some.inj (congrArg (·[2]?) e)
    rw [io_top hio] at top
    cases top
  | fdc row => cases e
  | ikbd len row => cases e; exact .inl ⟨len, row⟩
  | unknown len => cases e; exact .inr ⟨len, rfl, rfl⟩
  | ym row => cases e
  | iack row => cases e

/-- Settles O41: the buffer collects the bytes, and the last one completes the command, which is what its row does. -/
theorem ikbdCommandsRunWhenWritten : Obligations.IkbdCommandsRunWhenWritten := by
  intro s i c ps wellFormed frame empty table
  have start : withCmd [] s = s := by rw [← empty]; rfl
  obtain ⟨len, row⟩ | ⟨len, rfl, rfl⟩ := (frameOf_encode wellFormed).of_ikbd frame
  · rw [exec_ikbdInstr row, ← writeAcia_command (table.trans len) (List.cons_ne_nil c ps) (List.nil_append _), start]
  · rw [writeAcia_cons, ikbdReceive_unknown (table.trans len) empty]
    rfl

/-- Settles O42: every row is its own definition's change of the state, and RESET's goes by its second byte (R376). -/
theorem ikbdCommandEffects : Obligations.IkbdCommandEffects := by
  intro s p1 p2 p3 p4 p5 p6 after h
  obtain rfl : after = _ := funext fun m => funext fun j => funext fun q => h m j q
  refine ⟨rfl, fun i hi => ?mouse, fun i hi => ?joystick, rfl, rfl, rfl, ?reset, fun i hi => ?ignored⟩
  case reset =>
    show Host.Outcome.next (clearCmd (ikbdResetCmd p1 s)) = _
    unfold ikbdResetCmd
    by_cases h1 : p1 = 0x01
    · rw [if_pos h1, if_pos h1]; rfl
    · rw [if_neg h1, if_neg h1]; rfl
  case mouse | joystick | ignored => fin_cases hi <;> rfl

end Sys2Proof

namespace Sys2Proof
open Machine

/-! ## The interrupt lines

A change of the MFP either recomputes the lines (`withIrq`) or leaves the interrupt registers alone (`SameIrqRegs`), so
the lines agree after it in both cases. -/

/-- A change of the MFP followed by `UpdateIRQ()` makes the lines agree (41_mfp68901.md R226). -/
theorem withIrq_irqOk (m : Mfp) (s : State) : IrqOk (withIrq m s) := ⟨rfl, rfl⟩

/-- The request of the same interrupt registers is the same, so the lines stay in agreement. -/
theorem IrqOk.of_sameIrqRegs {s t : State} (hm : SameIrqRegs s.mfp t.mfp) (harb : t.arb = s.arb)
    (hipl : t.cpu.ipl = s.cpu.ipl) (hs : IrqOk s) : IrqOk t := by
  obtain ⟨hreq, hlevel⟩ := hs
  unfold IrqOk
  rw [harb, hipl, hm.request]
  exact ⟨hreq, hlevel⟩

/-- The writes that R206..R213 follow with `UpdateIRQ()` recompute the lines; the others touch no interrupt register. -/
theorem mfpWrite_irqOk (r : MfpReg) (v : Byte) {s : State} (hs : IrqOk s) : IrqOk (mfpWrite r v s) := by
  cases r with
  | gpip => exact hs.of_sameIrqRegs (writeGpip_same v s) rfl rfl
  | aer => exact hs.of_sameIrqRegs (writeAer_same v s) rfl rfl
  | ddr => exact hs.of_sameIrqRegs (writeDdr_same v s) rfl rfl
  | tacr => exact hs.of_sameIrqRegs (writeTacr_same v s) rfl rfl
  | tbcr => exact hs.of_sameIrqRegs (writeTbcr_same v s) rfl rfl
  | tcdcr => exact hs.of_sameIrqRegs (writeTcdcr_same v s) rfl rfl
  | tadr => exact hs.of_sameIrqRegs (writeTimerData_same .a v s) rfl rfl
  | tbdr => exact hs.of_sameIrqRegs (writeTimerData_same .b v s) rfl rfl
  | tcdr => exact hs.of_sameIrqRegs (writeTimerData_same .c v s) rfl rfl
  | tddr => exact hs.of_sameIrqRegs (writeTimerData_same .d v s) rfl rfl
  | iera | ierb | ipra | iprb | isra | isrb | imra | imrb | vr => exact withIrq_irqOk _ s

theorem mfpIack_irqOk {s : State} (hs : IrqOk s) : IrqOk (mfpIack s).2 := by
  unfold mfpIack
  split
  · exact hs
  · exact withIrq_irqOk _ s

/-- An event of timer A or B keeps the lines in agreement (41_mfp68901.md R219). -/
theorem tickEvent_irqOk (t : Timer) {s : State} (hs : IrqOk s) : IrqOk (tickEvent t s) := by
  unfold tickEvent
  split
  · exact storeCount_request _ _ _ hs
  · exact hs

/-- A WD1772 command reaches the MFP through its line alone. -/
theorem commandWrite_irqOk {c : Byte} {s t : State} (h : commandWrite c s = .next t) (hs : IrqOk s) : IrqOk t :=
  commandWrite_closed (P := IrqOk)
    (wd := fun _ hs => hs)
    (gpip := fun l b _ => setGpip_request l b _)
    (disk := fun _ hs => hs)
    (draws := fun _ hs => hs)
    (store := fun _ _ _ hs => hs)
    (havoc := fun hs => hs) h hs

/-- At reset no channel is enabled and no flag is set (10_state.md R69, R70). -/
theorem warmReset_irqOk (s : State) : IrqOk (warmReset s) := by
  have quiet : mfpRequest resetMfp = false := by decide
  exact ⟨quiet.symm, rfl⟩

theorem irqOk_coreClosed : CoreClosed IrqOk where
  cpu _ hipl := fun ⟨hreq, hlevel⟩ => ⟨hreq, hipl.trans hlevel⟩
  bus _ hs := hs
  draws _ hs := hs
  store _ _ _ hs := hs
  gpip l b _ := setGpip_request l b _
  updateIrq {s} _ := withIrq_irqOk s.mfp s
  mfpWrite r v hs := mfpWrite_irqOk r v hs
  mfpIack hs := mfpIack_irqOk hs
  clearHbl := fun ⟨hreq, _⟩ => ⟨hreq, rfl⟩
  clearVbl := fun ⟨hreq, _⟩ => ⟨hreq, rfl⟩
  ymSelect _ hs := hs
  ymWriteData {s} v hs := by
    obtain ⟨y, w, e⟩ := ymWriteData_cases v s
    exact e ▸ hs
  aciaControl {s} v hs := by
    obtain ⟨a, e | e⟩ := aciaControlWrite_cases v s
    · exact e ▸ hs
    · exact e ▸ setGpip_request .acia true _
  aciaDataRead _ := setGpip_request _ _ _
  queue _ hs := hs
  ikbd _ hs := hs
  disk _ hs := hs
  wd _ _ _ hs := hs
  commandWrite := commandWrite_irqOk

theorem irqOk_closed : Closed IrqOk where
  toCoreClosed := irqOk_coreClosed
  ops _ hs := hs
  host _ hs := hs
  loop _ _ hs := hs
  updateTimers n hs := updateTimers_request n hs
  tickEvent t hs := tickEvent_irqOk t hs
  raiseHbl := fun ⟨hreq, _⟩ => ⟨hreq, rfl⟩
  raiseVbl := fun ⟨hreq, _⟩ => ⟨hreq, rfl⟩
  ymSync _ hs := hs
  audioPull _ hs := hs
  aciaSync {s} n hs := by
    obtain ⟨a, e | e⟩ := aciaSync_cases n s
    · exact e ▸ hs
    · exact e ▸ setGpip_request .acia false _
  row _ _ _ hs := hs
  counter _ hs := hs
  frameComplete hs := hs
  warmReset _ := warmReset_irqOk _

/-- Settles O9: every primitive change leaves the interrupt registers and the lines alone, or recomputes the lines. -/
theorem stepKeepsInterruptLines : Obligations.StepKeepsInterruptLines :=
  fun _ _ hs h => step_closed irqOk_closed h hs

end Sys2Proof

namespace Sys2Proof
open Machine

/-! ## The acknowledge cycles -/

/-- Settles O48: the acknowledge of each level but 6 is one branch of `irq_ack`, and the IPL is that of the flags left. -/
theorem autovectorAcknowledges : Obligations.AutovectorAcknowledges := by
  refine fun s => ⟨rfl, rfl, ?_⟩
  simp only [List.forall_mem_cons]
  exact ⟨rfl, rfl, rfl, rfl, List.forall_mem_nil _⟩

/-! The channels as bits of a bank pair's word (41_mfp68901.md R200, R224). -/

/-- Bit `n` of a bank pair's word is the bit of channel `n`, for any pair as for IER. -/
theorem bankWord_getLsbD (a b : Byte) {n : Nat} (hn : n < 16) : (bankWord a b).getLsbD n = channelBit a b n :=
  ierBit_eq { resetMfp with iera := a, ierb := b } n hn

/-- The two bytes of a word are a bank pair that holds the word's bits. -/
theorem channelBit_bytes (v : Half) {n : Nat} (hn : n < 16) : channelBit (hi8 v) (lo8 v) n = v.getLsbD n := by
  rw [← bankWord_getLsbD _ _ hn]
  exact congrArg (·.getLsbD n) (half_of_bytes v)

theorem mfpActive_getLsbD (m : Mfp) {n : Nat} (hn : n < 16) : (mfpActive m).getLsbD n = channelActive m n := by
  unfold mfpActive channelActive
  simp only [BitVec.getLsbD_and, bankWord_getLsbD _ _ hn]
  congr 1
  cases bit m.vr 3 with
  | true => rw [if_pos rfl, BitVec.getLsbD_not, bankWord_getLsbD _ _ hn, decide_eq_true hn]; rfl
  | false => exact (show ∀ i, i < 16 → (0xFFFF#16).getLsbD i = true by decide) n hn

theorem channelMask_getLsbD {w n : Nat} (hn : n < 16) : (channelMask w).getLsbD n = (n == w) := by
  have one : channelMask w = BitVec.twoPow 16 w := rfl
  rw [one, BitVec.getLsbD_twoPow]
  by_cases h : n = w
  · subst h; simp [hn]
  · simp [h, Ne.symm h]

/-- The pending bits after `IPR[w] <- 0`. -/
theorem clearIpr_bit (m : Mfp) {w n : Nat} (hn : n < 16) :
    channelBit (clearIpr m w).ipra (clearIpr m w).iprb n = (channelBit m.ipra m.iprb n && n != w) := by
  unfold clearIpr
  dsimp only
  rw [channelBit_bytes _ hn, BitVec.getLsbD_and, BitVec.getLsbD_not, bankWord_getLsbD _ _ hn, channelMask_getLsbD hn,
    decide_eq_true hn]
  rfl

/-- The in-service bits after `ISR[w] <- 1`. -/
theorem setIsr_bit (m : Mfp) {w n : Nat} (hn : n < 16) :
    channelBit (setIsr m w).isra (setIsr m w).isrb n = (channelBit m.isra m.isrb n || n == w) := by
  unfold setIsr
  dsimp only
  rw [channelBit_bytes _ hn, BitVec.getLsbD_or, bankWord_getLsbD _ _ hn, channelMask_getLsbD hn]

/-! The winner (R227). -/

/-- In a decreasing list the first element with a property is the greatest one. -/
theorem find?_eq_some_iff_of_decreasing {l : List Nat} (hl : l.Pairwise (· > ·)) {p : Nat → Bool} {w : Nat} :
    l.find? p = some w ↔ w ∈ l ∧ p w = true ∧ ∀ n ∈ l, w < n → p n = false := by
  induction l with
  | nil => simp
  | cons a l ih =>
    obtain ⟨ha, hl⟩ := List.pairwise_cons.1 hl
    cases hp : p a with
    | true =>
      -- the head wins, and everything after it is smaller
      rw [List.find?_cons_of_pos hp]
      grind
    | false =>
      rw [List.find?_cons_of_neg (by simp [hp]), ih hl]
      grind

theorem mem_channels {n : Nat} : n ∈ [15, 14, 13, 12, 11, 10, 9, 8, 7, 6, 5, 4, 3, 2, 1, 0] ↔ n < 16 := by
  simp only [List.mem_cons, List.not_mem_nil, or_false]
  omega

/-- `highestChannel` is the highest bit set. -/
theorem highestChannel_eq_some_iff {v : Half} {w : Nat} : highestChannel v = some w
    ↔ w < 16 ∧ v.getLsbD w = true ∧ ∀ n, w < n → n < 16 → v.getLsbD n = false := by
  unfold highestChannel
  rw [find?_eq_some_iff_of_decreasing (by decide)]
  simp only [mem_channels]
  tauto

theorem highestChannel_eq_none {v : Half} (h : highestChannel v = none) {n : Nat} (hn : n < 16) :
    v.getLsbD n = false :=
  Bool.eq_false_iff.2 (List.find?_eq_none.1 h n (mem_channels.2 hn))

/-- The highest active channel wins where no channel in service is as high. -/
theorem mfpWinner_some {m : Mfp} {w : Nat} (hw : w < 16) (active : channelActive m w = true)
    (above : ∀ n, w < n → n < 16 → channelActive m n = false)
    (free : ∀ n, w ≤ n → n < 16 → channelBit m.isra m.isrb n = false) : mfpWinner m = some w := by
  have top : highestChannel (mfpActive m) = some w :=
    highestChannel_eq_some_iff.2 ⟨hw, (mfpActive_getLsbD m hw).trans active,
      fun n hn h16 => (mfpActive_getLsbD m h16).trans (above n hn h16)⟩
  unfold mfpWinner
  rw [top]
  cases service : highestChannel (bankWord m.isra m.isrb) with
  | none => rfl
  | some h =>
    obtain ⟨h16, set, -⟩ := highestChannel_eq_some_iff.1 service
    rw [bankWord_getLsbD _ _ h16] at set
    have lower : h < w := by
      by_contra hlt
      rw [free h (by omega) h16] at set
      cases set
    exact if_pos lower

/-- No channel wins where each active one has a channel in service as high. -/
theorem mfpWinner_none {m : Mfp} (masked : ∀ n, n < 16 → channelActive m n = true →
    ∃ h, h < 16 ∧ n ≤ h ∧ channelBit m.isra m.isrb h = true) : mfpWinner m = none := by
  unfold mfpWinner
  cases top : highestChannel (mfpActive m) with
  | none => rfl
  | some w =>
    obtain ⟨hw, active, -⟩ := highestChannel_eq_some_iff.1 top
    obtain ⟨h, h16, hle, set⟩ := masked w hw ((mfpActive_getLsbD m hw).symm.trans active)
    rw [← bankWord_getLsbD _ _ h16] at set
    cases service : highestChannel (bankWord m.isra m.isrb) with
    | none =>
      rw [highestChannel_eq_none service h16] at set
      cases set
    | some k =>
      obtain ⟨-, -, above⟩ := highestChannel_eq_some_iff.1 service
      have higher : h ≤ k := by
        by_contra hlt
        rw [above h (by omega) h16] at set
        cases set
      exact if_neg (by omega)

/-! The acknowledge of level 6 (R227, R228; 40_cpu_integration.md R184). -/

theorem exec_iackL6 (s : State) : exec .iackL6 s = .next (answer8 (mfpIack s).1 (updateIrq (mfpIack s).2)) := rfl

theorem mfpIack_none {s : State} (h : mfpWinner s.mfp = none) : mfpIack s = (0x18, s) := by
  unfold mfpIack
  rw [h]

theorem mfpIack_some {s : State} {w : Nat} (h : mfpWinner s.mfp = some w) : mfpIack s
    = ((s.mfp.vr &&& 0xF0#8) ||| BitVec.ofNat 8 w, withIrq (mfpAcked s.mfp w) s) := by
  unfold mfpIack
  rw [h]
  rfl

/-- The acknowledge changes nothing of the MFP but the pending and the in-service registers. -/
theorem mfpAcked_frame (m : Mfp) (w : Nat) : mfpAcked m w = { m with
    ipra := (mfpAcked m w).ipra, iprb := (mfpAcked m w).iprb
    isra := (mfpAcked m w).isra, isrb := (mfpAcked m w).isrb } := by
  unfold mfpAcked
  dsimp only
  split <;> rfl

theorem mfpAcked_pending (m : Mfp) (w : Nat) {n : Nat} (hn : n < 16) :
    channelBit (mfpAcked m w).ipra (mfpAcked m w).iprb n = (channelBit m.ipra m.iprb n && n != w) := by
  rw [← clearIpr_bit m hn]
  unfold mfpAcked
  dsimp only
  split <;> rfl

theorem mfpAcked_inService (m : Mfp) (w : Nat) {n : Nat} (hn : n < 16) :
    channelBit (mfpAcked m w).isra (mfpAcked m w).isrb n
      = (channelBit m.isra m.isrb n || (m.vr.getLsbD 3 && n == w)) := by
  unfold mfpAcked bit
  dsimp only
  cases m.vr.getLsbD 3 with
  | true => exact setIsr_bit (clearIpr m w) hn
  | false => exact (Bool.or_false _).symm

/-- Settles O49: the winner's acknowledge is `mfpAcked`; with no winner only `UpdateIRQ()` runs. -/
theorem mfpAcknowledgeTakesTheHighestChannel : Obligations.MfpAcknowledgeTakesTheHighestChannel := by
  refine fun s => ⟨fun masked => ?none, fun w hw active above free => ?wins⟩
  case none =>
    rw [exec_iackL6, mfpIack_none (mfpWinner_none masked)]
    rfl
  case wins =>
    refine ⟨mfpAcked s.mfp w, ?_, mfpAcked_frame s.mfp w,
      fun n hn => ⟨mfpAcked_pending s.mfp w hn, mfpAcked_inService s.mfp w hn⟩⟩
    rw [exec_iackL6, mfpIack_some (mfpWinner_some hw active above free)]
    rfl

end Sys2Proof

namespace Sys2Proof
open Machine

/-! ## Taking an interrupt (60_exceptions.md R460) -/

/-- The acknowledge looks at neither the stop nor the bus-error mark, and leaves both. -/
theorem irqAck_setStopped_markBerr (l : BitVec 3) (a b : Bool) (s : State) :
    irqAck l (setStopped a (markBerr b s)) = ((irqAck l s).1, setStopped a (markBerr b (irqAck l s).2)) := by
  have mfp : mfpIack (setStopped a (markBerr b s)) = ((mfpIack s).1, setStopped a (markBerr b (mfpIack s).2)) := by
    cases h : mfpWinner s.mfp with
    | none => rw [mfpIack_none h]; exact mfpIack_none h
    | some w => rw [mfpIack_some h]; exact mfpIack_some h
  unfold irqAck
  repeat' split
  · rfl
  · rfl
  · rw [mfp]; rfl
  · rfl

/-- An acknowledge changes the MFP, the arbiter's flags and the IPL alone. -/
theorem irqAck_frame (l : BitVec 3) (s : State) : (irqAck l s).2 = { s with
    mfp := (irqAck l s).2.mfp, arb := (irqAck l s).2.arb
    cpu := { s.cpu with ipl := (irqAck l s).2.cpu.ipl } } := by
  unfold irqAck
  repeat' split
  · rfl
  · rfl
  · cases h : mfpWinner s.mfp with
    | none => rw [mfpIack_none h]; rfl
    | some w => rw [mfpIack_some h]; rfl
  · rfl

/-- The handler is read at four times the vector, whose long the bus shows (R451). -/
theorem vectorAddr_eq_peekLong (v : Byte) (s : State) :
    vectorAddr v s = peekLong s (BitVec.ofNat 24 (4 * (v.setWidth 32).toNat)) := by
  have at_v : (v.setWidth 24 <<< 2 : Addr) = BitVec.ofNat 24 (4 * (v.setWidth 32).toNat) := by
    apply BitVec.eq_of_toNat_eq
    have hv := v.isLt
    simp only [BitVec.toNat_shiftLeft, BitVec.toNat_setWidth, BitVec.toNat_ofNat, Nat.shiftLeft_eq]
    omega
  rw [← at_v]
  rfl

theorem interruptAccepted_of_level {c : Cpu} (h : srMask c.regs.sr < c.ipl ∨ c.ipl = 7) :
    interruptAccepted c = true := by
  unfold interruptAccepted
  simpa using h

/-- The state whose short frame an accepted interrupt of level `l` pushes. -/
def interruptEntry (l : BitVec 3) (s : State) : State :=
  let s1 := enterSupervisor (betweenInstructions (setStopped false (markBerr false (irqAck l s).2)))
  setCore { s1.cpu.regs with sr := srSetMask s1.cpu.regs.sr l } s1

/-- A boundary that accepts an interrupt acknowledges it and pushes its short frame (40_cpu_integration.md R179). -/
theorem coreStep_interrupt {s : State} (h : interruptAccepted s.cpu = true) : coreStep s
    = shortFrame (irqAck s.cpu.ipl s).1 s.cpu.regs.sr s.cpu.regs.pc (interruptEntry s.cpu.ipl s) := by
  have accepted : interruptAccepted (markBerr false s).cpu = true := h
  have ack : irqAck (setStopped false (markBerr false s)).cpu.ipl (setStopped false (markBerr false s)) = _ :=
    irqAck_setStopped_markBerr s.cpu.ipl false false s
  unfold coreStep
  dsimp only
  rw [if_pos accepted]
  unfold takeInterrupt
  dsimp only
  rw [ack]
  rfl

theorem interruptEntry_eq (l : BitVec 3) (s : State) : interruptEntry l s = { s with
    mfp := (irqAck l s).2.mfp, arb := (irqAck l s).2.arb, draws := s.draws + 2
    cpu := { s.cpu with
      ipl := (irqAck l s).2.cpu.ipl, stopped := false, berr := false, ahead := []
      ir := (interruptEntry l s).cpu.ir, ipc := (interruptEntry l s).cpu.ipc
      regs := { s.cpu.regs with
        sr := (supervisorSr s.cpu.regs.sr &&& 0xF8FF#16) ||| (l.setWidth 16 <<< 8) } } } := by
  unfold interruptEntry
  rw [irqAck_frame]
  rfl

/-- Settles O51: the boundary pushes the short frame of the entered state, whose fields are those of the statement. -/
theorem acceptedInterruptsAreTaken : Obligations.AcceptedInterruptsAreTaken := by
  intro s u b hs accepted hu hb he hin
  subst hu
  have ssp : (interruptEntry s.cpu.ipl s).cpu.regs.ssp = s.cpu.regs.ssp := by rw [interruptEntry_eq]
  have params : (interruptEntry s.cpu.ipl s).params = s.params := by rw [interruptEntry_eq]
  have mem : (interruptEntry s.cpu.ipl s).mem = s.mem := by rw [interruptEntry_eq]
  have gen : (interruptEntry s.cpu.ipl s).ramGen = s.ramGen := by rw [interruptEntry_eq]
  obtain ⟨t, push, frame, fields, kept⟩ := shortFrame_ram (v := (irqAck s.cpu.ipl s).1) (sr0 := s.cpu.regs.sr)
    (pc := s.cpu.regs.pc) (s := interruptEntry s.cpu.ipl s) (b := b) (by rw [ssp]; exact hb) (by rw [ssp]; exact he)
    (by rw [params]; exact hin) rfl
  obtain ⟨-, sr, pc⟩ := fields (MemOk.of_mem mem hs)
  refine ⟨_, (coreStep_interrupt (interruptAccepted_of_level accepted)).trans push, ?_, fun k hk => ?_, sr, pc⟩
  · have handler : vectorAddr (irqAck s.cpu.ipl s).1 t = peekLong (setPc (vectorAddr (irqAck s.cpu.ipl s).1 t) t)
        (BitVec.ofNat 24 (4 * (acknowledge s.cpu.ipl s).bus.toNat)) := vectorAddr_eq_peekLong _ t
    rw [← handler, setPc_mem]
    generalize vectorAddr (irqAck s.cpu.ipl s).1 t = handlerPc
    generalize t.mem = m at frame
    rw [frame, interruptEntry_eq]
    rfl
  · exact (kept k (by omega)).trans (storedByte_congr params mem gen k)

end Sys2Proof

namespace Sys2Proof
open Machine

/-! ## The MFP's registers, request and timers (41_mfp68901.md) -/

/-! The request (R224, R225). -/

/-- `active` has a bit set exactly if some channel is active. -/
theorem mfpRequest_iff (m : Mfp) : mfpRequest m = true ↔ ∃ n, n < 16 ∧ channelActive m n = true := by
  unfold mfpRequest
  rw [bne_iff_ne]
  refine ⟨fun nonzero => ?_, fun ⟨n, hn, active⟩ zero => ?_⟩
  · by_contra none
    refine nonzero (BitVec.eq_of_getLsbD_eq fun n hn => ?_)
    have clear : channelActive m n = false := Bool.eq_false_iff.2 fun active => none ⟨n, hn, active⟩
    exact ((mfpActive_getLsbD m hn).trans clear).trans BitVec.getLsbD_zero.symm
  · rw [← mfpActive_getLsbD m hn, zero] at active
    exact Bool.false_ne_true (BitVec.getLsbD_zero.symm.trans active)

/-- Of the arbiter's flags only that of the MFP gives level 6 (40_cpu_integration.md R181). -/
theorem iplOf_eq_six_iff (a : Arbiter) : iplOf a = 6 ↔ a.mfp = true := by
  unfold iplOf
  cases a.mfp with
  | true => simp
  | false => cases a.vbl <;> cases a.hbl <;> decide

/-- Settles O50: `active` is nonzero exactly if a channel is active, and only the MFP's flag gives level 6. -/
theorem activeChannelsDriveLevelSix : Obligations.ActiveChannelsDriveLevelSix := by
  refine ⟨mfpRequest_iff, fun s ⟨request, level⟩ => ?_⟩
  rw [level, iplOf_eq_six_iff, request, mfpRequest_iff]

/-! The plain and the interrupt registers. -/

/-- Settles O37: each access is the register's read or a plain write of the register, with nothing after it. -/
theorem mfpPlainRegisters : Obligations.MfpPlainRegisters := by
  intro s v
  simp only [List.forall_mem_cons]
  exact ⟨⟨rfl, rfl, rfl, rfl, rfl, rfl, List.forall_mem_nil _⟩, rfl, rfl, rfl, rfl, rfl, rfl, List.forall_mem_nil _⟩

/-- A VR write keeps the in-service registers exactly if it enables the software end of interrupt (R213). -/
theorem writeVr_eq (v : Byte) (s : State) : writeVr v s = withIrq { s.mfp with
    vr := v, isra := if v.getLsbD 3 then s.mfp.isra else 0, isrb := if v.getLsbD 3 then s.mfp.isrb else 0 } s := by
  unfold writeVr bit
  cases v.getLsbD 3 <;> rfl

/-- Settles O38: each write is `setMfpIrq` of the register's new value, which recomputes the lines. -/
theorem mfpInterruptRegisters : Obligations.MfpInterruptRegisters := by
  intro s v
  have vr : exec (.mfpVrWr8 v) s = _ := congrArg Host.Outcome.next (writeVr_eq v s)
  simp only [List.forall_mem_cons]
  exact ⟨⟨rfl, rfl, rfl, rfl, rfl, rfl, rfl, rfl, rfl, List.forall_mem_nil _⟩,
    rfl, rfl, rfl, rfl, rfl, rfl, rfl, rfl, vr, List.forall_mem_nil _⟩

/-! The timer data registers (R214, R215, R221). -/

theorem delayDivisor_isSome_iff (mode : BitVec 4) :
    (delayDivisor mode).isSome = true ↔ 1 ≤ mode.toNat ∧ mode.toNat ≤ 7 := by
  revert mode
  decide

/-- Timers A and B count in the modes 1..8. -/
theorem counting_iff_of_event {t : Timer} (ht : t = .a ∨ t = .b) (m : Mfp) :
    counting m t = true ↔ 1 ≤ (timerMode m t).toNat ∧ (timerMode m t).toNat ≤ 8 := by
  have eight : timerMode m t = 8 ↔ (timerMode m t).toNat = 8 := BitVec.toNat_inj.symm
  unfold counting
  simp only [Bool.or_eq_true, Bool.and_eq_true, beq_iff_eq, delayDivisor_isSome_iff, ht, and_true, eight]
  omega

/-- Timers C and D have no event input: they count in the modes 1..7. -/
theorem counting_iff_of_no_event {t : Timer} (ht : t = .c ∨ t = .d) (m : Mfp) :
    counting m t = true ↔ 1 ≤ (timerMode m t).toNat ∧ (timerMode m t).toNat ≤ 7 := by
  have noEvent : ¬ (t = .a ∨ t = .b) := by rcases ht with rfl | rfl <;> decide
  unfold counting
  simp only [Bool.or_eq_true, Bool.and_eq_true, beq_iff_eq, delayDivisor_isSome_iff, noEvent, and_false, or_false]

/-- The mode in the low half of a control register. -/
theorem toNat_low_nibble (r : Byte) : (r.extractLsb' 0 4).toNat = (r &&& 0x0F#8).toNat := by
  rw [BitVec.toNat_and]
  exact (Nat.and_two_pow_sub_one_eq_mod r.toNat 4).symm

/-- The mode in the high half of a control register. -/
theorem toNat_high_nibble (r : Byte) : (r.extractLsb' 4 4).toNat = (r >>> 4).toNat := by
  have := r.isLt
  simp only [BitVec.extractLsb'_toNat, BitVec.toNat_ushiftRight, Nat.shiftRight_eq_div_pow]
  omega

theorem setTimerCounter_timerCounter (m : Mfp) (t : Timer) (v : Byte) :
    setTimerCounter (setTimerData m t v) t (timerCounter m t) = setTimerData m t v := by
  cases t <;> rfl

/-- A timer data write (R215) sets the data register, and loads the counter unless the timer counts. -/
theorem writeTimerData_eq {t : Timer} {v : Byte} {load : Counter → Counter} {running : Prop} [Decidable running]
    {s : State} (hload : ∀ c, load c = { c with cnt := reload v }) (hr : counting s.mfp t = true ↔ running) :
    writeTimerData t v s = { s with
      mfp := setTimerCounter (setTimerData s.mfp t v) t
        (if running then timerCounter s.mfp t else load (timerCounter s.mfp t)) } := by
  unfold writeTimerData
  dsimp only
  by_cases h : running
  · rw [if_pos h, if_pos (hr.2 h), setTimerCounter_timerCounter]
  · rw [if_neg h, if_neg (mt hr.1 h), hload]

/-- Settles O39: a read is the counter's low byte, and each write is `writeTimerData` under the mode field of its timer. -/
theorem mfpTimerDataRegisters : Obligations.MfpTimerDataRegisters := by
  intro s v load hload
  simp only [List.forall_mem_cons]
  refine ⟨⟨rfl, rfl, rfl, rfl, List.forall_mem_nil _⟩, congrArg _ (writeTimerData_eq (t := .a) hload ?_),
    congrArg _ (writeTimerData_eq (t := .b) hload ?_), congrArg _ (writeTimerData_eq (t := .c) hload ?_),
    congrArg _ (writeTimerData_eq (t := .d) hload ?_), List.forall_mem_nil _⟩
  · rw [counting_iff_of_event (.inl rfl), ← toNat_low_nibble]; rfl
  · rw [counting_iff_of_event (.inr rfl), ← toNat_low_nibble]; rfl
  · rw [counting_iff_of_no_event (.inl rfl), ← toNat_high_nibble]; rfl
  · rw [counting_iff_of_no_event (.inr rfl), ← toNat_low_nibble]; rfl

/-! The ticks (R218, R219, R220). -/

theorem timerChannel_lt (t : Timer) : timerChannel t < 16 := by
  cases t <;> decide

/-- `raise(n)` sets the pending bit unless the request is lost, and recomputes the lines in both cases (log 23). -/
theorem raiseChannel_eq_withIrq_raised {n : Nat} (hn : n < 16) (s : State) :
    raiseChannel n s = withIrq (raised s.params n s.mfp) s := by
  rw [raiseChannel_eq, raised_eq _ _ _ hn]

/-- A count that was reloaded is stored and raises the timer's channel. -/
theorem storeCount_reloaded (t : Timer) (phase cnt : Nat) (s : State) : storeCount t phase (cnt, true) s
    = withIrq (raised s.params (timerChannel t) (setTimerCounter s.mfp t { cnt := cnt, phase := phase })) s :=
  raiseChannel_eq_withIrq_raised (timerChannel_lt t) _

/-- A count that stays positive is stored, and nothing else happens. -/
theorem storeCount_positive (t : Timer) (phase cnt : Nat) (s : State) : storeCount t phase (cnt, false) s
    = { s with mfp := setTimerCounter s.mfp t { cnt := cnt, phase := phase } } := rfl

theorem countDown_of_lt {cnt dec : Nat} (h : dec < cnt) (r : Nat) : countDown cnt dec r = (cnt - dec, false) := if_pos h

theorem countDown_of_le {cnt dec : Nat} (h : cnt ≤ dec) (r : Nat) :
    countDown cnt dec r = (r - (dec - cnt) % r, true) := if_neg (by omega)

/-- What the loop of R218 leaves: `k` reloads make the counter positive again, and one less would not. -/
theorem countDown_spec {cnt r : Nat} (hr : 1 ≤ r) (dec : Nat) : ∃ c k : Nat, 1 ≤ c ∧ c + dec = cnt + k * r
    ∧ (k = 0 ∨ c ≤ r) ∧ countDown cnt dec r = (c, decide (k ≠ 0)) := by
  by_cases h : dec < cnt
  · exact ⟨cnt - dec, 0, by omega, by omega, .inl rfl, countDown_of_lt h r⟩
  · have small : (dec - cnt) % r < r := Nat.mod_lt _ hr
    have quotient : r * ((dec - cnt) / r) + (dec - cnt) % r = dec - cnt := Nat.div_add_mod _ _
    have reloads : ((dec - cnt) / r + 1) * r = r * ((dec - cnt) / r) + r := by ring
    exact ⟨r - (dec - cnt) % r, (dec - cnt) / r + 1, by omega, by omega, .inr (by omega), countDown_of_le (by omega) r⟩

theorem tickDelay_none {t : Timer} {s : State} (h : delayDivisor (timerMode s.mfp t) = none) (ticks : Nat) :
    tickDelay t ticks s = s := by
  unfold tickDelay
  rw [h]

theorem tickDelay_some {t : Timer} {s : State} {div : Nat} (h : delayDivisor (timerMode s.mfp t) = some div)
    (ticks : Nat) : tickDelay t ticks s = storeCount t (((timerCounter s.mfp t).phase + ticks) % div)
      (countDown (timerCounter s.mfp t).cnt (((timerCounter s.mfp t).phase + ticks) / div)
        (reload (timerData s.mfp t))) s := by
  unfold tickDelay
  rw [h]

/-- Settles O54: the tick stores the count of `countDown_spec`, which was reloaded exactly if `k` is not 0. -/
theorem delayTicksCountDown : Obligations.DelayTicksCountDown := by
  refine fun s x ticks _ => ⟨fun h => tickDelay_none h ticks, fun div h => ?_⟩
  obtain ⟨c, k, positive, total, least, count⟩ := countDown_spec (cnt := (timerCounter s.mfp x).cnt)
    (reload_range (timerData s.mfp x)).1 (((timerCounter s.mfp x).phase + ticks) / div)
  refine ⟨c, k, positive, total, least, ?_⟩
  rw [tickDelay_some h, count]
  by_cases hk : k = 0
  · rw [if_pos hk, decide_eq_false (not_not_intro hk), storeCount_positive]
  · rw [if_neg hk, decide_eq_true hk, storeCount_reloaded]

/-- Settles O55: one event is a count of one, which reloads the counter exactly if it stood at 1. -/
theorem eventTicksCountLines : Obligations.EventTicksCountLines := by
  intro s x ⟨positive, _⟩ _
  unfold tickEvent
  dsimp only
  split
  case isFalse => rfl
  case isTrue =>
    by_cases last : (timerCounter s.mfp x).cnt = 1
    · rw [if_pos last, countDown_of_le (by omega), storeCount_reloaded, last, Nat.sub_self, Nat.zero_mod, Nat.sub_zero]
    · rw [if_neg last, countDown_of_lt (by omega), storeCount_positive]

end Sys2Proof

namespace Sys2Proof
open Machine

/-! ## The YM2149 (42_ym2149.md) -/

/-! The register accesses (R250..R256). -/

/-- The drive of a port A value by its two active-low bits, drive A first (R255). -/
theorem portDrive_eq (v : Byte) : portDrive v =
    if v.getLsbD 1 = false then .driveA else if v.getLsbD 2 = false then .driveB else .noDrive := by
  unfold portDrive bit
  cases v.getLsbD 1 <;> cases v.getLsbD 2 <;> rfl

/-- The inverted side is one less the bit (R255). -/
theorem portSide_eq (invert : Bool) (v : Byte) : portSide invert v =
    if invert then 1#1 - v.extractLsb' 0 1 else v.extractLsb' 0 1 := by
  have complement : ∀ b : BitVec 1, ~~~ b = 1#1 - b := by decide
  unfold portSide
  rw [complement]

/-- A data write writes the selected register, and nothing else moves but what register 13 or 14 has set off. -/
theorem ymWriteData_eq_ymWritten (v : Byte) (s : State) : ymWriteData v s = ymWritten s.ym.sel v s := by
  unfold ymWriteData ymWritten
  dsimp only
  by_cases restart : s.ym.sel = 13
  · simp only [if_pos restart]
    rw [if_neg (by rw [restart]; decide)]
    rfl
  · simp only [if_neg restart]
    by_cases port : s.ym.sel = 14
    · simp only [if_pos port, ← portDrive_eq, ← portSide_eq]
      rfl
    · simp only [if_neg port]
      rfl

/-- A row of 30_encoding.md R147 selects its register and writes it. -/
theorem exec_eq_ymWritten {i : Instr} {n : Byte} {r : BitVec 4} {v : Byte} {s : State}
    (row : exec i s = .next (ymRegisterWrite n v s)) (select : n.extractLsb' 0 4 = r) :
    exec i s = .next (ymWritten r v { s with ym := { s.ym with sel := r } }) := by
  subst select
  exact row.trans (congrArg _ (ymWriteData_eq_ymWritten v (ymSelect n s)))

/-- Settles O36: a data write is `ymWritten` of the selected register, and each row selects its register first. -/
theorem ymRegisterAccesses : Obligations.YmRegisterAccesses := by
  refine fun s v => ⟨rfl, rfl, rfl, congrArg _ (ymWriteData_eq_ymWritten v s), ?_⟩
  simp only [List.forall_mem_cons]
  have row {i : Instr} {n : Byte} {r : BitVec 4} := exec_eq_ymWritten (i := i) (n := n) (r := r) (v := v) (s := s)
  exact ⟨row rfl rfl, row rfl rfl, row rfl rfl, row rfl rfl, row rfl rfl, row rfl rfl, row rfl rfl, row rfl rfl,
    row rfl rfl, row rfl rfl, row rfl rfl, row rfl rfl, row rfl rfl, row rfl rfl, row rfl rfl, row rfl rfl,
    List.forall_mem_nil _⟩

/-! The invariant of the generators and the ring (R257, R262, R264, R267). -/

/-- The sound generator's invariant, in the words of Laws/Ym.lean. -/
theorem ymOk_iff (s : State) : YmOk s ↔ YmRange (s.params.hostRate / 4) s.ym ∧ s.ym.cyc < 32 :=
  ⟨fun ⟨hrng, henv, hcyc, hring⟩ => ⟨⟨hrng, henv, hring⟩, hcyc⟩, fun ⟨h, hcyc⟩ => ⟨h.rng, h.envPos, hcyc, h.ring⟩⟩

/-- An operation on the MFP's lines reaches neither the YM2149 nor the parameters. -/
theorem YmOk.of_irq {s t : State} (h : IrqFrame s t) (hs : YmOk s) : YmOk t := by
  unfold YmOk
  rw [h.ym, h.params]
  exact hs

theorem setGpip_ymOk (l : GpipLine) (b : Bool) {s : State} (hs : YmOk s) : YmOk (setGpip l b s) :=
  hs.of_irq (setGpip_irq l b s)

/-- A register write can only put the envelope back to 0 (R252, R254). -/
theorem ymWritten_ymOk (n : BitVec 4) (v : Byte) {s : State} (hs : YmOk s) : YmOk (ymWritten n v s) := by
  obtain ⟨hrng, henv, hcyc, hring⟩ := hs
  refine ⟨hrng, ?_, hcyc, hring⟩
  show (if n = 13 then 0 else s.ym.envPos) < 96
  split
  · decide
  · exact henv

/-- The ticks of a sync keep the ranges, and the remainder carried is one of a division by 32 (R257). -/
theorem ymSync_ymOk (n : Nat) {s : State} (hs : YmOk s) : YmOk (ymSync n s) := by
  obtain ⟨range, -⟩ := (ymOk_iff s).1 hs
  refine (ymOk_iff _).2 ⟨ymTicks_range s.params _ (setCyc_range _ range), ?_⟩
  show (ymTicks s.params _ (setCyc ((n + s.ym.cyc) % 32) s.ym)).cyc < 32
  rw [ymTicks_cyc]
  exact Nat.mod_lt _ (by decide)

theorem audioPull_ymOk (n : Nat) {s : State} (hs : YmOk s) : YmOk (audioPull n s) := by
  obtain ⟨range, hcyc⟩ := (ymOk_iff s).1 hs
  obtain ⟨kept, same⟩ := pullSamples_range n range
  exact (ymOk_iff _).2 ⟨kept, same.trans_lt hcyc⟩

/-- At reset the LFSR is 1, the counts are 0 and the ring is empty (10_state.md R71). -/
theorem warmReset_ymOk (s : State) : YmOk (warmReset s) := by
  have seed : resetYm.rng ≠ 0 := by decide
  exact ⟨seed, by show 0 < 96; decide, by show 0 < 32; decide, Nat.zero_le _⟩

/-- No command of the WD1772 reaches the YM2149. -/
theorem commandWrite_ymOk {c : Byte} {s t : State} (h : commandWrite c s = .next t) (hs : YmOk s) : YmOk t :=
  commandWrite_closed (P := YmOk)
    (wd := fun _ hs => hs)
    (gpip := fun l b hs => setGpip_ymOk l b hs)
    (disk := fun _ hs => hs)
    (draws := fun _ hs => hs)
    (store := fun _ _ _ hs => hs)
    (havoc := fun hs => hs) h hs

theorem ymOk_coreClosed : CoreClosed YmOk where
  cpu _ _ hs := hs
  bus _ hs := hs
  draws _ hs := hs
  store _ _ _ hs := hs
  gpip l b hs := setGpip_ymOk l b hs
  updateIrq hs := hs
  mfpWrite r v hs := hs.of_irq (mfpWrite_irq r v _)
  mfpIack hs := hs.of_irq (mfpIack_irq _)
  clearHbl hs := hs
  clearVbl hs := hs
  ymSelect _ hs := hs
  ymWriteData v hs := ymWriteData_eq_ymWritten v _ ▸ ymWritten_ymOk _ v hs
  aciaControl {s} v hs := by
    obtain ⟨a, e | e⟩ := aciaControlWrite_cases v s
    · exact e ▸ hs
    · exact e ▸ setGpip_ymOk _ _ (s := { s with acia := a }) hs
  aciaDataRead hs := setGpip_ymOk _ _ hs
  queue _ hs := hs
  ikbd _ hs := hs
  disk _ hs := hs
  wd _ _ _ hs := hs
  commandWrite := commandWrite_ymOk

theorem ymOk_closed : Closed YmOk where
  toCoreClosed := ymOk_coreClosed
  ops _ hs := hs
  host _ hs := hs
  loop _ _ hs := hs
  updateTimers n hs := hs.of_irq (updateTimers_irq n _)
  tickEvent t hs := hs.of_irq (tickEvent_irq t _)
  raiseHbl hs := hs
  raiseVbl hs := hs
  ymSync n hs := ymSync_ymOk n hs
  audioPull n hs := audioPull_ymOk n hs
  aciaSync {s} n hs := by
    obtain ⟨a, e | e⟩ := aciaSync_cases n s
    · exact e ▸ hs
    · exact e ▸ setGpip_ymOk _ _ (s := { s with acia := a }) hs
  row _ _ _ hs := hs
  counter _ hs := hs
  frameComplete hs := hs
  warmReset _ := warmReset_ymOk _

/-- Settles O11: only register writes, the ticks, a pull and a reset move the generators or the ring, and each keeps the
ranges. -/
theorem stepKeepsSoundGeneratorInRange : Obligations.StepKeepsSoundGeneratorInRange :=
  fun _ _ hs h => step_closed ymOk_closed h hs

/-! The generators (R258, R260..R263). -/

theorem lfsrStep_of_odd {r : BitVec 17} (h : r.getLsbD 0 = true) : lfsrStep r = ((r >>> 1) ^^^ 0x12000#17, true) :=
  if_pos h

theorem lfsrStep_of_even {r : BitVec 17} (h : r.getLsbD 0 = false) : lfsrStep r = (r >>> 1, false) :=
  if_neg (Bool.eq_false_iff.1 h)

/-- The noise period is the low five bits of register 6 (R258). -/
theorem noisePeriod_eq (r : Vector Byte 16) : noisePeriod r = r[6].toNat % 32 := rfl

/-- The envelope period is the pair of registers 12 and 11 (R258). -/
theorem envPeriod_eq (r : Vector Byte 16) : envPeriod r = r[12].toNat * 256 + r[11].toNat := by
  unfold envPeriod
  rw [BitVec.toNat_append, ← Nat.shiftLeft_add_eq_or_of_lt r[11].isLt, Nat.shiftLeft_eq]

theorem envLoopStart_eq (p : Config.Params) : envLoopStart p = if p.envLoop = .from32 then 32 else 64 := by
  unfold envLoopStart
  cases p.envLoop <;> rfl

theorem tickNoise_eq (y : Ym) : tickNoise y =
    if y.ncnt + 1 ≥ 2 * max 1 (y.reg[6].toNat % 32)
    then { y with ncnt := 0, rng := (lfsrStep y.rng).1, noise := (lfsrStep y.rng).2 }
    else { y with ncnt := y.ncnt + 1 } := by
  rw [← noisePeriod_eq]
  rfl

theorem tickEnv_eq (p : Config.Params) (y : Ym) : tickEnv p y =
    if y.envCnt - 1 ≤ 0
    then { y with
      envCnt := max 1 ((y.reg[12].toNat * 256 + y.reg[11].toNat : Nat) : Int)
      envPos := if y.envPos + 1 ≠ 96 then y.envPos + 1 else if p.envLoop = .from32 then 32 else 64 }
    else { y with envCnt := y.envCnt - 1 } := by
  rw [← envPeriod_eq, ← envLoopStart_eq, ite_not]
  rfl

/-- Settles O59: each clause is a generator's tick with the period of R258, or a step of the shift register. -/
theorem noiseAndToneGenerators : Obligations.NoiseAndToneGenerators := by
  refine ⟨fun _ => ⟨lfsrStep_of_odd, lfsrStep_of_even, lfsrStep_ne_zero⟩, ?states, tickNoise_eq, tickEnv_eq,
    fun _ => rfl, fun _ _ => rfl⟩
  case states =>
    simp only [List.forall_mem_cons]
    have odd {r : BitVec 17} := lfsrStep_of_odd (r := r)
    have even {r : BitVec 17} := lfsrStep_of_even (r := r)
    exact ⟨odd rfl, even rfl, even rfl, even rfl, even rfl, even rfl, even rfl, even rfl, even rfl, even rfl, even rfl,
      even rfl, even rfl, even rfl, odd rfl, List.forall_mem_nil _⟩

end Sys2Proof

namespace Sys2Proof
open Machine

/-! ## The WD1772 between steps (43_wd1772_dma.md R310, R332)

A command raises BUSY and may raise the multi-sector flag, and each of the ways a command ends clears both, but for the
status a track command draws. -/

theorem busy_cleared (v : Byte) : bit (v &&& 0xFE#8) 0 = false := by
  unfold bit
  simp

/-- The invariant depends on the status, the multi-sector flag and the parameters alone. -/
theorem WdOk.of_same {s t : State} (hp : t.params = s.params) (hstatus : t.wd.status = s.wd.status)
    (hmulti : t.wd.multi = s.wd.multi) (hs : WdOk s) : WdOk t := by
  unfold WdOk
  rw [hp, hstatus, hmulti]
  exact hs

theorem WdOk.of_irq {s t : State} (h : IrqFrame s t) (hs : WdOk s) : WdOk t :=
  hs.of_same h.params (congrArg Wd.status h.wd) (congrArg Wd.multi h.wd)

theorem setGpip_wdOk (l : GpipLine) (b : Bool) {s : State} (hs : WdOk s) : WdOk (setGpip l b s) :=
  hs.of_irq (setGpip_irq l b s)

/-- Port A of the YM2149 selects the drive and the side, and a write reaches no other register of the WD1772. -/
theorem ymWritten_wd (n : BitVec 4) (v : Byte) (s : State) :
    ∃ (drive : Drive) (side : BitVec 1), (ymWritten n v s).wd = { s.wd with drive := drive, side := side } := by
  unfold ymWritten
  dsimp only
  split
  · exact ⟨_, _, rfl⟩
  · exact ⟨s.wd.drive, s.wd.side, rfl⟩

theorem ymWritten_wdOk (n : BitVec 4) (v : Byte) {s : State} (hs : WdOk s) : WdOk (ymWritten n v s) := by
  obtain ⟨_, _, e⟩ := ymWritten_wd n v s
  exact WdOk.of_same (s := s) rfl (by rw [e]) (by rw [e]) hs

/-! The ends of a command. -/

theorem finishWith_wdOk (st : Byte) (s : State) : WdOk (finishWith st s) := by
  rw [finishWith_eq]
  exact ⟨rfl, fun _ => busy_cleared st⟩

theorem wdFail_wdOk (st : Byte) (s : State) : WdOk (wdFail st s) := by
  rw [wdFail_eq]
  exact ⟨rfl, fun _ => busy_cleared st⟩

theorem finishMany_wdOk (r : Bool × State) : WdOk (finishMany r) := by
  unfold finishMany
  split
  · exact finishWith_wdOk _ _
  · exact wdFail_wdOk _ _

theorem cmdForceInterrupt_eq (s : State) : cmdForceInterrupt s = { withIrq (fdcLine s.params true s.mfp) s with
    wd := { s.wd with status := s.wd.status &&& 0xFE#8, multi := false } } := by
  unfold cmdForceInterrupt
  rw [setGpip_fdc]
  rfl

theorem cmdForceInterrupt_wdOk (s : State) : WdOk (cmdForceInterrupt s) := by
  rw [cmdForceInterrupt_eq]
  exact ⟨rfl, fun _ => busy_cleared _⟩

theorem cmdReadSector_wdOk (s : State) : WdOk (cmdReadSector s) := by
  unfold cmdReadSector
  dsimp only
  split
  · exact wdFail_wdOk _ _
  · split
    · exact wdFail_wdOk _ _
    · exact finishWith_wdOk _ _

theorem cmdReadMulti_wdOk (s : State) : WdOk (cmdReadMulti s) := by
  unfold cmdReadMulti
  dsimp only
  split
  · exact wdFail_wdOk _ _
  · exact finishMany_wdOk _

theorem cmdWriteSector_wdOk (s : State) : WdOk (cmdWriteSector s) := by
  unfold cmdWriteSector
  dsimp only
  split
  · exact wdFail_wdOk _ _
  · split
    · exact wdFail_wdOk _ _
    · split
      · exact wdFail_wdOk _ _
      · exact finishWith_wdOk _ _

theorem cmdWriteMulti_wdOk (s : State) : WdOk (cmdWriteMulti s) := by
  unfold cmdWriteMulti
  dsimp only
  split
  · exact wdFail_wdOk _ _
  · split
    · exact wdFail_wdOk _ _
    · exact finishMany_wdOk _

theorem cmdReadAddress_wdOk (s : State) : WdOk (cmdReadAddress s) := by
  unfold cmdReadAddress
  split
  · exact wdFail_wdOk _ _
  · exact finishWith_wdOk _ _

/-! The track commands (R324, R325). -/

theorem drawBytes_frame (n : Nat) (s : State) : (drawBytes n s).2 = { s with draws := s.draws + n } := by
  induction n generalizing s with
  | zero => rfl
  | succ n ih =>
    refine (ih (nextDraw s)).trans ?_
    show { s with draws := s.draws + 1 + n } = { s with draws := s.draws + (n + 1) }
    rw [Nat.add_right_comm, Nat.add_assoc]

/-- The draws of an image track change the image and the count of draws alone. -/
theorem havocTrack_frame (s : State) :
    havocTrack s = { s with disk := (havocTrack s).disk, draws := (havocTrack s).draws } := by
  unfold havocTrack
  split
  · rfl
  · dsimp only
    rw [drawBytes_frame]

theorem cmdReadTrack_of_refuse {s : State} (h : s.params.trackCmds = .refuse) :
    cmdReadTrack s = .refused .fdcTrackCommand := by
  unfold cmdReadTrack
  rw [h]

theorem cmdReadTrack_of_havoc {s : State} (h : s.params.trackCmds = .havoc) :
    cmdReadTrack s = .next (havocRam (havocRegs (wdComplete s))) := by
  unfold cmdReadTrack
  rw [h]

theorem cmdWriteTrack_of_refuse {s : State} (h : s.params.trackCmds = .refuse) :
    cmdWriteTrack s = .refused .fdcTrackCommand := by
  unfold cmdWriteTrack
  rw [h]

theorem cmdWriteTrack_of_havoc {s : State} (h : s.params.trackCmds = .havoc) :
    cmdWriteTrack s = .next (havocTrack (havocRegs (wdComplete s))) := by
  unfold cmdWriteTrack
  rw [h]

/-- Where the status is drawn, the invariant asks for the flag alone (log 31). -/
theorem havocRegs_wdComplete_wdOk {s : State} (h : s.params.trackCmds = .havoc) : WdOk (havocRegs (wdComplete s)) := by
  rw [wdComplete_eq]
  refine ⟨rfl, fun refuse => ?_⟩
  cases h.symm.trans refuse

theorem cmdReadTrack_wdOk {s t : State} (h : cmdReadTrack s = .next t) : WdOk t := by
  cases track : s.params.trackCmds with
  | refuse => cases (cmdReadTrack_of_refuse track).symm.trans h
  | havoc =>
    cases (cmdReadTrack_of_havoc track).symm.trans h
    exact havocRegs_wdComplete_wdOk track

theorem cmdWriteTrack_wdOk {s t : State} (h : cmdWriteTrack s = .next t) : WdOk t := by
  cases track : s.params.trackCmds with
  | refuse => cases (cmdWriteTrack_of_refuse track).symm.trans h
  | havoc =>
    cases (cmdWriteTrack_of_havoc track).symm.trans h
    rw [havocTrack_frame]
    exact havocRegs_wdComplete_wdOk track

/-- A command leaves the WD1772 idle, whatever it was before. -/
theorem commandWrite_wdOk {c : Byte} {s t : State} (h : commandWrite c s = .next t) : WdOk t := by
  unfold commandWrite at h
  dsimp only at h
  split at h
  case h_1 | h_2 | h_3 | h_4 | h_5 | h_6 | h_7 | h_8 => cases h; exact finishWith_wdOk _ _
  case h_9 => cases h; exact cmdReadSector_wdOk _
  case h_10 => cases h; exact cmdReadMulti_wdOk _
  case h_11 => cases h; exact cmdWriteSector_wdOk _
  case h_12 => cases h; exact cmdWriteMulti_wdOk _
  case h_13 => cases h; exact cmdReadAddress_wdOk _
  case h_14 => cases h; exact cmdForceInterrupt_wdOk _
  case h_15 => exact cmdReadTrack_wdOk h
  case h_16 => exact cmdWriteTrack_wdOk h

/-- At reset the status is 0 and no transfer runs (10_state.md R73). -/
theorem warmReset_wdOk (s : State) : WdOk (warmReset s) := by
  have idle : bit resetWd.status 0 = false := by decide
  exact ⟨rfl, fun _ => idle⟩

theorem wdOk_coreClosed : CoreClosed WdOk where
  cpu _ _ hs := hs
  bus _ hs := hs
  draws _ hs := hs
  store _ _ _ hs := hs
  gpip l b hs := setGpip_wdOk l b hs
  updateIrq hs := hs
  mfpWrite r v hs := hs.of_irq (mfpWrite_irq r v _)
  mfpIack hs := hs.of_irq (mfpIack_irq _)
  clearHbl hs := hs
  clearVbl hs := hs
  ymSelect _ hs := hs
  ymWriteData v hs := ymWriteData_eq_ymWritten v _ ▸ ymWritten_wdOk _ v hs
  aciaControl {s} v hs := by
    obtain ⟨a, e | e⟩ := aciaControlWrite_cases v s
    · exact e ▸ hs
    · exact e ▸ setGpip_wdOk _ _ (s := { s with acia := a }) hs
  aciaDataRead hs := setGpip_wdOk _ _ hs
  queue _ hs := hs
  ikbd _ hs := hs
  disk _ hs := hs
  wd {s} _ hstatus hmulti hs := WdOk.of_same (s := s) rfl hstatus hmulti hs
  commandWrite h _ := commandWrite_wdOk h

theorem wdOk_closed : Closed WdOk where
  toCoreClosed := wdOk_coreClosed
  ops _ hs := hs
  host _ hs := hs
  loop _ _ hs := hs
  updateTimers n hs := hs.of_irq (updateTimers_irq n _)
  tickEvent t hs := hs.of_irq (tickEvent_irq t _)
  raiseHbl hs := hs
  raiseVbl hs := hs
  ymSync _ hs := hs
  audioPull _ hs := hs
  aciaSync {s} n hs := by
    obtain ⟨a, e | e⟩ := aciaSync_cases n s
    · exact e ▸ hs
    · exact e ▸ setGpip_wdOk _ _ (s := { s with acia := a }) hs
  row _ _ _ hs := hs
  counter _ hs := hs
  frameComplete hs := hs
  warmReset _ := warmReset_wdOk _

/-- Settles O12: a register write, a line or a reset leaves the status and the flag as they are or idle, and so does a
command, by each of its ends. -/
theorem stepLeavesNoFdcCommandRunning : Obligations.StepLeavesNoFdcCommandRunning :=
  fun _ _ hs h => step_closed wdOk_closed h hs

end Sys2Proof

namespace Sys2Proof
open Machine

/-! ## The registers at 0xFF8604..0xFF860D (43_wd1772_dma.md R300..R308) -/

/-! The data accesses (R300..R303). -/

/-- `fdc_reg(m)` is one of four registers. -/
theorem fdcReg_cases (m : Half) : fdcReg m = 0 ∨ fdcReg m = 1 ∨ fdcReg m = 2 ∨ fdcReg m = 3 := by
  generalize fdcReg m = r
  revert r
  decide

theorem fdcRead_eq (s : State) : fdcRead s =
    if s.wd.dmaMode.getLsbD 4 then (s.wd.dmaCount, s)
    else if s.wd.dmaMode.getLsbD 3 then (0xFF, s)
    else if fdcReg s.wd.dmaMode = 0 then (s.wd.status, withIrq (fdcLine s.params true s.mfp) s)
    else if fdcReg s.wd.dmaMode = 1 then (s.wd.track, s)
    else if fdcReg s.wd.dmaMode = 2 then (s.wd.sector, s)
    else (s.wd.data, s) := by
  unfold fdcRead selectsCount selectsHdc
  rw [setGpip_fdc]
  congr 2
  obtain e | e | e | e := fdcReg_cases s.wd.dmaMode <;> rw [e] <;> rfl

/-- A command byte is its two nibbles, so its write is the row it decodes to (30_encoding.md R144). -/
theorem commandWrite_eq_decodeFdc (c : Byte) (s : State) : commandWrite c s = exec (decodeFdc c) s := by
  have nibbles : c = c.extractLsb' 4 4 ++ c.extractLsb' 0 4 := by
    revert c
    decide
  rw [nibbles]
  exact commandWrite_eq_exec _ _ s

theorem fdcWrite_eq (v : Byte) (s : State) : fdcWrite v s =
    if s.wd.dmaMode.getLsbD 4 then .next { s with wd := { s.wd with dmaCount := v } }
    else if s.wd.dmaMode.getLsbD 3 then .next s
    else if fdcReg s.wd.dmaMode = 0 then exec (decodeFdc v) s
    else if fdcReg s.wd.dmaMode = 1 then .next { s with wd := { s.wd with track := v } }
    else if fdcReg s.wd.dmaMode = 2 then .next { s with wd := { s.wd with sector := v } }
    else .next { s with wd := { s.wd with data := v } } := by
  unfold fdcWrite selectsCount selectsHdc
  rw [commandWrite_eq_decodeFdc]
  congr 2
  obtain e | e | e | e := fdcReg_cases s.wd.dmaMode <;> rw [e] <;> rfl

/-- Settles O26: both reads answer `fdcRead`, and both writes are `fdcWrite` of the low byte. -/
theorem fdcDataAccessesReachTheSelectedRegister : Obligations.FdcDataAccessesReachTheSelectedRegister := by
  intro s hi v
  have word : exec (.fdcDmaDataWr16 (hi ++ v)) s = fdcWrite v s := congrArg (fdcWrite · s) (lo8_append hi v)
  have reads : ∀ i ∈ [Instr.fdcDmaDataRd16, Instr.fdcDmaDataLoRd8],
      exec i s = .next (answer8 (fdcRead s).1 (fdcRead s).2) := by
    simp only [List.forall_mem_cons]
    exact ⟨rfl, rfl, List.forall_mem_nil _⟩
  have writes : ∀ i ∈ [Instr.fdcDmaDataWr16 (hi ++ v), Instr.fdcDmaDataLoWr8 v], exec i s = fdcWrite v s := by
    simp only [List.forall_mem_cons]
    exact ⟨word, rfl, List.forall_mem_nil _⟩
  refine ⟨fun i row => (reads i row).trans ?_, rfl, fun i row => (writes i row).trans (fdcWrite_eq v s), rfl⟩
  rw [fdcRead_eq]
  unfold fdcReg
  split_ifs <;> rfl

/-! The mode, status and address accesses (R305..R308). -/

theorem dmaModeWrite_eq (m : Half) (s : State) : dmaModeWrite m s = { s with wd := { s.wd with
    dmaMode := m
    prevDir := m.getLsbD 8
    dmaCount := if m.getLsbD 8 = s.wd.prevDir then s.wd.dmaCount else 0
    dmaError := if m.getLsbD 8 = s.wd.prevDir then s.wd.dmaError else false } } := by
  unfold dmaModeWrite
  simp only [bne_iff_ne, ne_eq, ite_not]

theorem dmaStatus_value (w : Wd) :
    (dmaStatus w).setWidth 32 = (if w.dmaError then 0 else 1#32) + if w.dmaCount = 0 then 0 else 2#32 := by
  unfold dmaStatus
  by_cases empty : w.dmaCount = 0
  · simp only [if_pos empty]
    cases w.dmaError <;> rfl
  · simp only [if_neg empty]
    cases w.dmaError <;> rfl

/-- The high byte of the DMA status is 0. -/
theorem lo8_dmaStatus (w : Wd) : (lo8 (dmaStatus w)).setWidth 32 = (dmaStatus w).setWidth 32 := by
  unfold dmaStatus
  by_cases empty : w.dmaCount = 0
  · simp only [if_pos empty]
    cases w.dmaError <;> rfl
  · simp only [if_neg empty]
    cases w.dmaError <;> rfl

/-- A byte of the DMA address, as the bus answers it. -/
theorem addrByte_value (a : Addr) (n : Nat) :
    (a.extractLsb' n 8).setWidth 32 = (a >>> n).setWidth 32 &&& 0xFF#32 := by
  refine BitVec.eq_of_getLsbD_eq fun i hi => ?_
  simp only [BitVec.getLsbD_setWidth, BitVec.getLsbD_extractLsb', BitVec.getLsbD_and, BitVec.getLsbD_ushiftRight]
  interval_cases i <;> simp

theorem dmaAddrWithHi_eq (a : Addr) (b : Byte) :
    dmaAddrWithHi a b = (a &&& 0x00FFFF#24) ||| (b.setWidth 24 <<< 16) := by
  unfold dmaAddrWithHi
  refine BitVec.eq_of_getLsbD_eq fun i hi => ?_
  rw [BitVec.getLsbD_append]
  interval_cases i <;> simp

theorem dmaAddrWithMid_eq (a : Addr) (b : Byte) :
    dmaAddrWithMid a b = (a &&& 0xFF00FF#24) ||| (b.setWidth 24 <<< 8) := by
  unfold dmaAddrWithMid
  refine BitVec.eq_of_getLsbD_eq fun i hi => ?_
  rw [BitVec.getLsbD_append, BitVec.getLsbD_append]
  interval_cases i <;> simp

theorem dmaAddrWithLo_eq (a : Addr) (b : Byte) :
    dmaAddrWithLo a b = (a &&& 0xFFFF00#24) ||| (b &&& 0xFE#8).setWidth 24 := by
  unfold dmaAddrWithLo
  refine BitVec.eq_of_getLsbD_eq fun i hi => ?_
  rw [BitVec.getLsbD_append]
  interval_cases i <;> simp

/-- Settles O27: every mode write is `dmaModeWrite` of the mode with its bytes replaced, and the reads and the address
writes are the words of the registers. -/
theorem dmaRegisterAccesses : Obligations.DmaRegisterAccesses := by
  intro s m b
  have read {v w : Word} (e : v = w) :
      (.next (answer v s) : Host.Outcome State Fault Refusal) = .next (answer w s) := by
    rw [e]
  have write {a a' : Addr} (e : a = a') :
      (.next (dmaAddrWrite a s) : Host.Outcome State Fault Refusal) = .next (dmaAddrWrite a' s) := by
    rw [e]
  simp only [List.forall_mem_cons]
  exact ⟨⟨congrArg _ (dmaModeWrite_eq _ s), congrArg _ (dmaModeWrite_eq _ s), congrArg _ (dmaModeWrite_eq _ s),
    List.forall_mem_nil _⟩,
    ⟨read (dmaStatus_value s.wd), read ((lo8_dmaStatus s.wd).trans (dmaStatus_value s.wd)), rfl,
      read (addrByte_value s.wd.dmaAddr 16), read (addrByte_value s.wd.dmaAddr 8),
      read (addrByte_value s.wd.dmaAddr 0), List.forall_mem_nil _⟩,
    write (dmaAddrWithHi_eq s.wd.dmaAddr b), write (dmaAddrWithMid_eq s.wd.dmaAddr b),
    write (dmaAddrWithLo_eq s.wd.dmaAddr b), List.forall_mem_nil _⟩

end Sys2Proof

namespace Sys2Proof
open Machine

/-! ## The type I commands (43_wd1772_dma.md R311..R316) -/

/-- The state a type I command leaves: the command byte, the head, the track register, the direction, the status and the
completion pulse. -/
def headMoved (c : Byte) (head : Nat) (track : Byte) (dir : StepDir) (s : State) : State :=
  { withIrq (fdcPulse s.params s.mfp) s with
    wd := { s.wd with
      command := c, head := head, track := track, stepDir := dir, multi := false
      status := (if head = 0 then 0xA4#8 else 0xA0#8) ||| diskBits s.wd s.disk } }

theorem finishType1_commandBegun (c : Byte) (head : Nat) (track : Byte) (dir : StepDir) (s : State) :
    finishType1 { commandBegun c s with
      wd := { (commandBegun c s).wd with head := head, track := track, stepDir := dir } }
      = headMoved c head track dir s := by
  have done := finishType1_eq c s { (commandBegun c s).wd with head := head, track := track, stepDir := dir } rfl
  rw [wdBegin_eq] at done
  exact done

/-- `step(d, u)` with the direction `d` latched (R313..R315). -/
theorem doStep_commandBegun (c : Byte) (d : StepDir) (u : Bool) (s : State) :
    doStep d u { commandBegun c s with wd := { (commandBegun c s).wd with stepDir := d } }
      = headMoved c (stepHead d s.wd.head (headLimit s)) (if u then stepTrack d s.wd.track else s.wd.track) d s :=
  finishType1_commandBegun c _ _ d s

theorem exec_fdcRestore (fl : BitVec 4) (s : State) :
    exec (.fdcRestore fl) s = .next (headMoved (0x0#4 ++ fl) 0 0 s.wd.stepDir s) :=
  congrArg Host.Outcome.next ((congrArg cmdRestore (wdBegin_eq _ s)).trans (finishType1_commandBegun _ _ _ _ s))

theorem exec_fdcSeek (fl : BitVec 4) (s : State) : exec (.fdcSeek fl) s
    = .next (headMoved (0x1#4 ++ fl) (min s.wd.data.toNat (headLimit s)) s.wd.data s.wd.stepDir s) :=
  congrArg Host.Outcome.next ((congrArg cmdSeek (wdBegin_eq _ s)).trans (finishType1_commandBegun _ _ _ _ s))

/-- STEP repeats the latched direction (R313). -/
theorem cmdStep_wdBegin (c : Byte) (u : Bool) (s : State) : cmdStep u (wdBegin c s)
    = headMoved c (stepHead s.wd.stepDir s.wd.head (headLimit s))
        (if u then stepTrack s.wd.stepDir s.wd.track else s.wd.track) s.wd.stepDir s :=
  (congrArg (cmdStep u) (wdBegin_eq c s)).trans (doStep_commandBegun c s.wd.stepDir u s)

/-- STEP-IN and STEP-OUT latch their direction (R314, R315). -/
theorem cmdStepDir_wdBegin (c : Byte) (d : StepDir) (u : Bool) (s : State) : cmdStepDir d u (wdBegin c s)
    = headMoved c (stepHead d s.wd.head (headLimit s)) (if u then stepTrack d s.wd.track else s.wd.track) d s :=
  (congrArg (cmdStepDir d u) (wdBegin_eq c s)).trans (doStep_commandBegun c d u s)

theorem stepHead_eq (d : StepDir) (head limit : Nat) :
    stepHead d head limit = if d = .inward then min (head + 1) limit else min (head - 1) limit := by
  cases d <;> rfl

theorem stepTrack_eq (d : StepDir) (track : Byte) :
    stepTrack d track = if d = .inward then track + 1 else track - 1 := by
  cases d <;> rfl

/-- Settles O28: each command ends in `headMoved` of the head, track and direction it computes. -/
theorem typeOneCommandsMoveTheHead : Obligations.TypeOneCommandsMoveTheHead := by
  intro s fl limit up down hlimit hup hdown
  subst hup hdown
  have limits : limit = headLimit s := hlimit
  subst limits
  have step (c : Byte) (u : Bool) := cmdStep_wdBegin c u s
  simp only [stepHead_eq, stepTrack_eq] at step
  simp only [List.forall_mem_cons]
  exact ⟨exec_fdcRestore fl s, exec_fdcSeek fl s, congrArg _ (step _ false), congrArg _ (step _ true),
    congrArg _ (cmdStepDir_wdBegin _ .inward false s), congrArg _ (cmdStepDir_wdBegin _ .inward true s),
    congrArg _ (cmdStepDir_wdBegin _ .outward false s), congrArg _ (cmdStepDir_wdBegin _ .outward true s),
    List.forall_mem_nil _⟩

end Sys2Proof

namespace Sys2Proof
open Machine

/-! ## Sectors read (43_wd1772_dma.md R309, R317..R320) -/

theorem dmaPutAll_append (xs ys : List Byte) (s : State) :
    dmaPutAll (xs ++ ys) s = dmaPutAll ys (dmaPutAll xs s) := by
  induction xs generalizing s with
  | nil => rfl
  | cons b t ih => exact ih (dmaPut b s)

/-- Where DMA stores depends on memory, the RAM size and the DMA address alone. -/
theorem dmaPutAll_mem_congr (bs : List Byte) {s t : State} (hmem : t.mem = s.mem) (hp : t.params = s.params)
    (haddr : t.wd.dmaAddr = s.wd.dmaAddr) : (dmaPutAll bs t).mem = (dmaPutAll bs s).mem := by
  induction bs generalizing s t with
  | nil => exact hmem
  | cons b rest ih =>
    have stored : (ramWrite t.wd.dmaAddr b t).mem = (ramWrite s.wd.dmaAddr b s).mem := by
      unfold ramWrite storeByte
      rw [haddr, hp, hmem]
      split
      · rfl
      · exact hmem
    refine ih ?_ ?_ ?_ <;> rw [dmaPut_eq, dmaPut_eq]
    · exact stored
    · exact hp
    · exact congrArg (· + 1) haddr

/-- The state a completed command leaves that put `bs` into RAM and has the registers `w` at its end. -/
def transferDone (bs : List Byte) (w : Wd) (s : State) : State :=
  { withIrq (fdcPulse s.params s.mfp) s with mem := (dmaPutAll bs s).mem, wd := w }

theorem storedByte_transferDone (bs : List Byte) (w : Wd) (s : State) (k : Nat) :
    storedByte (transferDone bs w s) k = storedByte (dmaPutAll bs s) k := by
  have frame := dmaPutAll_frame bs s
  have hp : (dmaPutAll bs s).params = s.params := by rw [frame]
  have hgen : (dmaPutAll bs s).ramGen = s.ramGen := by rw [frame]
  exact storedByte_congr (t := transferDone bs w s) hp.symm rfl hgen.symm k

theorem sameBytesBut_transferDone {bs : List Byte} {n : Nat} (hlen : bs.length = n) (w : Wd) (s : State) :
    SameBytesBut (dmaTarget s.params s.wd.dmaAddr n) s (transferDone bs w s) :=
  fun k outside => (storedByte_transferDone bs w s k).trans (dmaPutAll_ne (hlen ▸ outside))

theorem transferDone_byte {bs : List Byte} {n : Nat} (hlen : bs.length = n) (w : Wd) {s : State} (hm : MemOk s)
    (hn : n ≤ 2 ^ 24) {j : Nat} (hj : j < n) (ha : (s.wd.dmaAddr + BitVec.ofNat 24 j).toNat < ramBytes s.params) :
    storedByte (transferDone bs w s) (s.wd.dmaAddr + BitVec.ofNat 24 j).toNat = bs.getD j 0 := by
  subst hlen
  rw [storedByte_transferDone, dmaPutAll_byte hm hn hj ha, List.getD_eq_getElem _ _ hj]

/-- The bytes of the sector that `w` selects. -/
def sectorBytes (w : Wd) (d : Floppy) : List Byte :=
  (d.payload.drop ((sectorIndex w d).toNat * d.bps)).take d.bps

theorem sectorBytes_length {w : Wd} {d : Floppy} (h : ¬ overruns w d) : (sectorBytes w d).length = d.bps := by
  obtain ⟨-, hend⟩ := sector_inside h
  unfold sectorBytes
  rw [List.length_take, List.length_drop]
  omega

theorem sectorBytes_byte (w : Wd) (d : Floppy) {j : Nat} (hj : j < d.bps) :
    (sectorBytes w d).getD j 0 = d.payload.getD ((sectorIndex w d).toNat * d.bps + j) 0 := by
  unfold sectorBytes
  rw [List.getD_eq_getElem?_getD, List.getD_eq_getElem?_getD, List.getElem?_take_of_lt hj, List.getElem?_drop]

/-- `read_one()` of a sector the image holds. -/
theorem readOne_of_inside {d : Floppy} {s : State} (h : ¬ overruns s.wd d) : readOne d s = some { s with
    mem := (dmaPutAll (sectorBytes s.wd d) s).mem
    wd := { s.wd with dmaAddr := s.wd.dmaAddr + BitVec.ofNat 24 d.bps } } := by
  unfold readOne
  rw [sectorOffset_of_inside h]
  have frame := dmaPutAll_frame (sectorBytes s.wd d) s
  rw [sectorBytes_length h] at frame
  exact congrArg some frame

theorem readOne_of_overruns {d : Floppy} {s : State} (h : overruns s.wd d) : readOne d s = none := by
  unfold readOne
  rw [sectorOffset_of_overruns h]

theorem exec_fdcReadSector (fl : BitVec 4) (s : State) :
    exec (.fdcReadSector fl) s = .next (cmdReadSector (commandBegun (0x8#4 ++ fl) s)) :=
  congrArg (fun u => Host.Outcome.next (cmdReadSector u)) (wdBegin_eq _ s)

theorem exec_fdcReadSectorMulti (fl : BitVec 4) (s : State) :
    exec (.fdcReadSectorMulti fl) s = .next (cmdReadMulti (commandBegun (0x9#4 ++ fl) s)) :=
  congrArg (fun u => Host.Outcome.next (cmdReadMulti u)) (wdBegin_eq _ s)

theorem exec_fdcReadAddress (fl : BitVec 4) (s : State) :
    exec (.fdcReadAddress fl) s = .next (cmdReadAddress (commandBegun (0xC#4 ++ fl) s)) :=
  congrArg (fun u => Host.Outcome.next (cmdReadAddress u)) (wdBegin_eq _ s)

/-- The start of a command moves nothing that a transfer goes by. -/
theorem dmaPutAll_mem_commandBegun (bs : List Byte) (c : Byte) (s : State) :
    (dmaPutAll bs (commandBegun c s)).mem = (dmaPutAll bs s).mem :=
  dmaPutAll_mem_congr bs rfl rfl rfl

/-- READ SECTOR single of a sector the image holds (43_wd1772_dma.md R317). -/
theorem cmdReadSector_of_inside {s : State} {d : Floppy} (hdrive : s.wd.drive = .driveA) (hdisk : s.disk = some d)
    (h : ¬ overruns s.wd d) : cmdReadSector s = finishWith 0x00 { s with
      mem := (dmaPutAll (sectorBytes s.wd d) s).mem
      wd := { s.wd with
        multi := false
        dmaCount := if s.wd.dmaCount = 0 then 0 else s.wd.dmaCount - 1
        dmaAddr := s.wd.dmaAddr + BitVec.ofNat 24 d.bps } } := by
  have seen : driveDisk (setMulti false s) = some d := (driveDisk_driveA (s := setMulti false s) hdrive).trans hdisk
  have stored : (dmaPutAll (sectorBytes s.wd d) (setMulti false s)).mem = (dmaPutAll (sectorBytes s.wd d) s).mem :=
    dmaPutAll_mem_congr _ rfl rfl rfl
  unfold cmdReadSector
  dsimp only
  rw [seen]
  dsimp only
  rw [readOne_of_inside (s := setMulti false s) h, ← stored]
  rfl

/-- Settles O30: the transfer is one `dma_put` of the sector's bytes, and the window does not wrap onto itself. -/
theorem readSectorMovesOneSector : Obligations.ReadSectorMovesOneSector := by
  intro s fl d hm hdrive hdisk h hbps
  have hlen := sectorBytes_length h
  refine ⟨transferDone (sectorBytes s.wd d) _ s, ?_, rfl, sameBytesBut_transferDone hlen _ s,
    fun j hj ha => (transferDone_byte hlen _ hm hbps hj ha).trans (sectorBytes_byte s.wd d hj)⟩
  rw [exec_fdcReadSector, cmdReadSector_of_inside (s := commandBegun (0x8#4 ++ fl) s) hdrive hdisk h,
    dmaPutAll_mem_commandBegun, finishWith_eq]
  rfl

/-! ## Many sectors read (43_wd1772_dma.md R318) -/

theorem atSector_zero (d : Floppy) (w : Wd) : atSector d w 0 = w := by
  unfold atSector sectorAfter
  rw [Nat.zero_mul, BitVec.sub_zero, BitVec.add_zero]

/-- After the transfer of sector `i`, the registers are those of the turn of the next. -/
theorem nextSector_atSector (d : Floppy) (w : Wd) (i : Nat) (s : State) :
    nextSector d.spt { s with
      wd := { atSector d w i with dmaAddr := (atSector d w i).dmaAddr + BitVec.ofNat 24 d.bps } }
      = { s with wd := atSector d w (i + 1) } := by
  have count : w.dmaCount - BitVec.ofNat 8 i - 1 = w.dmaCount - BitVec.ofNat 8 (i + 1) := by
    rw [BitVec.ofNat_add, BitVec.sub_sub]
    rfl
  have addr : w.dmaAddr + BitVec.ofNat 24 (i * d.bps) + BitVec.ofNat 24 d.bps
      = w.dmaAddr + BitVec.ofNat 24 ((i + 1) * d.bps) := by
    rw [BitVec.add_assoc, ← BitVec.ofNat_add, ← Nat.succ_mul]
  unfold atSector nextSector
  dsimp only
  rw [count, addr]
  rfl

/-- The bytes that `n` sectors of a READ SECTOR multiple move, first to last. -/
def sectorStream (w : Wd) (d : Floppy) : Nat → List Byte
  | 0 => []
  | i + 1 => sectorStream w d i ++ sectorBytes (atSector d w i) d

/-- The state after `n` sectors of a READ SECTOR multiple. -/
def sectorsRead (s : State) (d : Floppy) (n : Nat) : State :=
  { s with mem := (dmaPutAll (sectorStream s.wd d n) s).mem, wd := atSector d s.wd n }

theorem sectorsRead_zero (s : State) (d : Floppy) : sectorsRead s d 0 = s := by
  unfold sectorsRead
  rw [atSector_zero]
  rfl

/-- The start of a command moves neither the sectors nor where they are put. -/
theorem sectorStream_commandBegun (b : Bool) (c : Byte) (s : State) (d : Floppy) (n : Nat) :
    sectorStream (setMulti b (commandBegun c s)).wd d n = sectorStream s.wd d n := by
  induction n with
  | zero => rfl
  | succ n ih => exact congrArg (· ++ sectorBytes (atSector d s.wd n) d) ih

section
variable {w : Wd} {d : Floppy} {n : Nat} (h : ∀ i, i < n → ¬ overruns (atSector d w i) d)
include h

theorem sectorStream_length : (sectorStream w d n).length = n * d.bps := by
  induction n with
  | zero => exact (Nat.zero_mul _).symm
  | succ n ih =>
    rw [sectorStream, List.length_append, ih fun i hi => h i (Nat.lt_succ_of_lt hi),
      sectorBytes_length (h n (Nat.lt_succ_self n)), Nat.succ_mul]

/-- Byte `j` of the sector of turn `i`. -/
theorem sectorStream_byte {i j : Nat} (hi : i < n) (hj : j < d.bps) : (sectorStream w d n).getD (i * d.bps + j) 0
    = d.payload.getD ((sectorIndex (atSector d w i) d).toNat * d.bps + j) 0 := by
  induction n with
  | zero => omega
  | succ n ih =>
    have earlier : ∀ i, i < n → ¬ overruns (atSector d w i) d := fun i hi => h i (Nat.lt_succ_of_lt hi)
    have hlen := sectorStream_length earlier
    rw [sectorStream]
    obtain before | rfl := Nat.lt_or_eq_of_le (Nat.le_of_lt_succ hi)
    · have room := Nat.mul_le_mul_right d.bps before
      rw [Nat.succ_mul] at room
      rw [List.getD_append _ _ _ _ (by omega), ih earlier before]
    · rw [List.getD_append_right _ _ _ _ (by omega), hlen, Nat.add_sub_cancel_left, sectorBytes_byte _ d hj]

end

/-- The turn of one sector. -/
theorem readMany_turn {s : State} {d : Floppy} {i : Nat} (h : ∀ j, j < i + 1 → ¬ overruns (atSector d s.wd j) d)
    (m : Nat) : readMany d (m + 1) (sectorsRead s d i) = readMany d m (sectorsRead s d (i + 1)) := by
  have hlen := sectorStream_length fun j hj => h j (Nat.lt_succ_of_lt hj)
  have frame := dmaPutAll_frame (sectorStream s.wd d i) s
  have stored : (dmaPutAll (sectorBytes (atSector d s.wd i) d) (sectorsRead s d i)).mem
      = (dmaPutAll (sectorStream s.wd d (i + 1)) s).mem := by
    rw [sectorStream, dmaPutAll_append]
    refine dmaPutAll_mem_congr _ rfl ?_ ?_
    · rw [frame]
      rfl
    · rw [frame, hlen]
      rfl
  rw [readMany, readOne_of_inside (s := sectorsRead s d i) (h i (Nat.lt_succ_self i))]
  refine congrArg (readMany d m) ((nextSector_atSector d s.wd i { sectorsRead s d i with
    mem := (dmaPutAll (sectorBytes (atSector d s.wd i) d) (sectorsRead s d i)).mem }).trans ?_)
  rw [stored]
  rfl

theorem readMany_turns {s : State} {d : Floppy} {n : Nat} (h : ∀ i, i < n → ¬ overruns (atSector d s.wd i) d)
    (m : Nat) : readMany d (n + m) s = readMany d m (sectorsRead s d n) := by
  induction n generalizing m with
  | zero => rw [Nat.zero_add, sectorsRead_zero]
  | succ n ih => rw [Nat.succ_add_eq_add_succ, ih fun i hi => h i (Nat.lt_succ_of_lt hi), readMany_turn h]

/-- The sectors of a READ SECTOR multiple: all of them, or those before the first that overruns. -/
theorem readMany_eq {s : State} {d : Floppy} {n c : Nat} (hn : n ≤ c)
    (h : ∀ i, i < n → ¬ overruns (atSector d s.wd i) d) (hend : n = c ∨ overruns (atSector d s.wd n) d) :
    readMany d c s = (decide (n = c), sectorsRead s d n) := by
  obtain ⟨m, rfl⟩ := Nat.exists_eq_add_of_le hn
  rw [readMany_turns h]
  cases m with
  | zero => rw [Nat.add_zero, decide_eq_true rfl]; rfl
  | succ m =>
    have last : overruns (sectorsRead s d n).wd d := hend.resolve_left (by omega)
    rw [readMany, readOne_of_overruns last, decide_eq_false (by omega)]

/-- READ SECTOR multiple with a disk in drive A (43_wd1772_dma.md R318). -/
theorem cmdReadMulti_eq {s : State} {d : Floppy} (hdrive : s.wd.drive = .driveA) (hdisk : s.disk = some d) {n : Nat}
    (hn : n ≤ s.wd.dmaCount.toNat) (h : ∀ i, i < n → ¬ overruns (atSector d s.wd i) d)
    (hend : n = s.wd.dmaCount.toNat ∨ overruns (atSector d s.wd n) d) :
    cmdReadMulti s = finishMany (decide (n = s.wd.dmaCount.toNat), sectorsRead (setMulti true s) d n) := by
  have seen : driveDisk (setMulti true s) = some d := (driveDisk_driveA (s := setMulti true s) hdrive).trans hdisk
  unfold cmdReadMulti
  dsimp only
  rw [seen]
  exact congrArg finishMany (readMany_eq (s := setMulti true s) hn h hend)

/-- The sectors read from the start of a command, in the words of the state before it. -/
theorem sectorsRead_commandBegun (c : Byte) (s : State) (d : Floppy) (n : Nat) :
    sectorsRead (setMulti true (commandBegun c s)) d n = { commandBegun c s with
      mem := (dmaPutAll (sectorStream s.wd d n) s).mem
      wd := atSector d (setMulti true (commandBegun c s)).wd n } := by
  unfold sectorsRead
  rw [sectorStream_commandBegun]
  have stored : (dmaPutAll (sectorStream s.wd d n) (setMulti true (commandBegun c s))).mem
      = (dmaPutAll (sectorStream s.wd d n) s).mem := dmaPutAll_mem_congr _ rfl rfl rfl
  rw [stored]
  rfl

/-- Settles O31: the sectors moved are one `dma_put` of their bytes, first to last. -/
theorem readSectorMultipleMovesTheCount : Obligations.ReadSectorMultipleMovesTheCount := by
  intro s fl d n hm hdrive hdisk hn h hend hroom
  have inside : ∀ i, i < n → ¬ overruns (atSector d s.wd i) d := h
  have hlen := sectorStream_length inside
  refine ⟨transferDone (sectorStream s.wd d n) _ s, ?_, rfl, sameBytesBut_transferDone hlen _ s,
    fun i j hi hj ha => (transferDone_byte hlen _ hm hroom ?_ ha).trans (sectorStream_byte inside hi hj)⟩
  · rw [exec_fdcReadSectorMulti, cmdReadMulti_eq (s := commandBegun (0x9#4 ++ fl) s) hdrive hdisk hn h hend,
      finishMany_eq, sectorsRead_commandBegun]
    rfl
  · have room := Nat.mul_le_mul_right d.bps hi
    rw [Nat.succ_mul] at room
    omega

/-- READ ADDRESS with a disk in drive A (43_wd1772_dma.md R323). -/
theorem cmdReadAddress_of_disk {s : State} {d : Floppy} (seen : driveDisk s = some d) :
    cmdReadAddress s = finishWith 0x00 { s with
      mem := (dmaPutAll (idField s.wd) s).mem, wd := { s.wd with dmaAddr := s.wd.dmaAddr + 6 } } := by
  unfold cmdReadAddress
  rw [seen]
  exact congrArg (finishWith 0x00) (dmaPutAll_frame (idField s.wd) s)

/-- Settles O34: the transfer is one `dma_put` of the six bytes of the ID field. -/
theorem readAddressPutsTheIdField : Obligations.ReadAddressPutsTheIdField := by
  intro s fl d hm hdrive hdisk
  have hlen : (idField s.wd).length = 6 := rfl
  have seen : driveDisk (commandBegun (0xC#4 ++ fl) s) = some d :=
    (driveDisk_driveA (s := commandBegun (0xC#4 ++ fl) s) hdrive).trans hdisk
  refine ⟨transferDone (idField s.wd) _ s, ?_, rfl, sameBytesBut_transferDone hlen _ s,
    fun j hj ha => transferDone_byte hlen _ hm (by decide) hj ha⟩
  rw [exec_fdcReadAddress, cmdReadAddress_of_disk seen, dmaPutAll_mem_commandBegun, finishWith_eq]
  rfl

end Sys2Proof

namespace Sys2Proof
open Machine

/-! ## Failing commands (43_wd1772_dma.md R317, R318, R321..R323) -/

/-- The state that a failing command leaves: its status, the DMA error and the completion pulse (R322). -/
def commandFailed (c st : Byte) (s : State) : State :=
  { withIrq (fdcPulse s.params s.mfp) s with
    wd := { s.wd with command := c, status := st, dmaError := true, multi := false } }

theorem wdFail_commandBegun (c : Byte) {st : Byte} (idle : st &&& 0xFE#8 = st) (s : State) :
    wdFail st (commandBegun c s) = commandFailed c st s := by
  rw [wdFail_eq, idle]
  rfl

/-- A failure ends a multiple transfer, so it does not matter whether one was running. -/
theorem wdFail_setMulti (st : Byte) (b : Bool) (s : State) : wdFail st (setMulti b s) = wdFail st s := by
  rw [wdFail_eq, wdFail_eq]
  rfl

theorem driveDisk_setMulti (b : Bool) (s : State) : driveDisk (setMulti b s) = driveDisk s := rfl

/-! No disk seen. -/

theorem driveDisk_eq_none {s : State} (h : ¬ (s.wd.drive = .driveA ∧ s.disk.isSome)) : driveDisk s = none := by
  by_cases hdrive : s.wd.drive = .driveA
  · rw [driveDisk_driveA hdrive]
    simpa [hdrive] using h
  · unfold driveDisk
    cases hd : s.wd.drive with
    | noDrive | driveB => rfl
    | driveA => exact absurd hd hdrive

section
variable {s : State} (unseen : driveDisk s = none)
include unseen

theorem cmdReadSector_of_none : cmdReadSector s = wdFail 0x10 s := by
  unfold cmdReadSector
  dsimp only
  rw [driveDisk_setMulti, unseen]
  exact wdFail_setMulti _ _ s

theorem cmdReadMulti_of_none : cmdReadMulti s = wdFail 0x10 s := by
  unfold cmdReadMulti
  dsimp only
  rw [driveDisk_setMulti, unseen]
  exact wdFail_setMulti _ _ s

theorem cmdWriteSector_of_none : cmdWriteSector s = wdFail 0x10 s := by
  unfold cmdWriteSector
  dsimp only
  rw [driveDisk_setMulti, unseen]
  exact wdFail_setMulti _ _ s

theorem cmdWriteMulti_of_none : cmdWriteMulti s = wdFail 0x10 s := by
  unfold cmdWriteMulti
  dsimp only
  rw [driveDisk_setMulti, unseen]
  exact wdFail_setMulti _ _ s

theorem cmdReadAddress_of_none : cmdReadAddress s = wdFail 0x10 s := by
  unfold cmdReadAddress
  rw [unseen]

end

/-! A protected disk, and a sector outside the image. -/

section
variable {s : State} {d : Floppy} (seen : driveDisk s = some d)
include seen

theorem cmdWriteSector_of_protected (hw : d.writeProtected = true) : cmdWriteSector s = wdFail 0x40 s := by
  unfold cmdWriteSector
  dsimp only
  rw [driveDisk_setMulti, seen]
  exact (if_pos hw).trans (wdFail_setMulti _ _ s)

theorem cmdWriteMulti_of_protected (hw : d.writeProtected = true) : cmdWriteMulti s = wdFail 0x40 s := by
  unfold cmdWriteMulti
  dsimp only
  rw [driveDisk_setMulti, seen]
  exact (if_pos hw).trans (wdFail_setMulti _ _ s)

theorem cmdReadSector_of_overruns (h : overruns s.wd d) : cmdReadSector s = wdFail 0x10 s := by
  unfold cmdReadSector
  dsimp only
  rw [driveDisk_setMulti, seen]
  dsimp only
  rw [readOne_of_overruns (s := setMulti false s) h]
  exact wdFail_setMulti _ _ s

theorem cmdWriteSector_of_overruns (hw : d.writeProtected = false) (h : overruns s.wd d) :
    cmdWriteSector s = wdFail 0x10 s := by
  unfold cmdWriteSector
  dsimp only
  rw [driveDisk_setMulti, seen]
  dsimp only
  rw [if_neg (by rw [hw]; exact Bool.false_ne_true), writeOne_of_overruns (s := setMulti false s) h]
  exact wdFail_setMulti _ _ s

end

/-! A multiple command whose turn `n` overruns. -/

theorem finishMany_of_lt {n c : Nat} (h : n < c) (s : State) : finishMany (decide (n = c), s) = wdFail 0x10 s := by
  rw [decide_eq_false (by omega)]
  rfl

section
variable {s : State} {d : Floppy} (hdrive : s.wd.drive = .driveA) (hdisk : s.disk = some d) {n : Nat}
  (hn : n < s.wd.dmaCount.toNat) (h : ∀ i, i < n → ¬ overruns (atSector d s.wd i) d)
  (hend : overruns (atSector d s.wd n) d) (fl : BitVec 4)
include hdrive hdisk hn h hend

/-- READ SECTOR multiple keeps the `n` sectors moved in RAM. -/
theorem exec_fdcReadSectorMulti_of_overruns : exec (.fdcReadSectorMulti fl) s
    = .next { commandFailed (0x9#4 ++ fl) 0x10 s with
      mem := (dmaPutAll (sectorStream s.wd d n) s).mem
      wd := atSector d (commandFailed (0x9#4 ++ fl) 0x10 s).wd n } := by
  rw [exec_fdcReadSectorMulti,
    cmdReadMulti_eq (s := commandBegun (0x9#4 ++ fl) s) hdrive hdisk (Nat.le_of_lt hn) h (.inr hend)]
  refine congrArg _ ((finishMany_of_lt hn _).trans ?_)
  rw [sectorsRead_commandBegun, wdFail_eq]
  rfl

/-- WRITE SECTOR multiple keeps the `n` sectors written in the image. -/
theorem exec_fdcWriteSectorMulti_of_overruns (hw : d.writeProtected = false) : exec (.fdcWriteSectorMulti fl) s
    = .next { commandFailed (0xB#4 ++ fl) 0x10 s with
      disk := some { d with payload := payloadAfter s d n }
      wd := atSector d (commandFailed (0xB#4 ++ fl) 0x10 s).wd n } := by
  rw [exec_fdcWriteSectorMulti,
    cmdWriteMulti_eq (s := commandBegun (0xB#4 ++ fl) s) hdrive hdisk hw (Nat.le_of_lt hn) h (.inr hend)]
  refine congrArg _ ((finishMany_of_lt hn _).trans ?_)
  unfold sectorsWritten
  rw [payloadAfter_commandBegun, wdFail_eq]
  rfl

end

section
variable {s : State} {d : Floppy} (hdrive : s.wd.drive = .driveA) (hdisk : s.disk = some d)
  (hcount : 0 < s.wd.dmaCount.toNat) (h : overruns s.wd d) (fl : BitVec 4)
include hdrive hdisk hcount h

/-- A multiple command that fails on its first sector leaves what a single one does. -/
theorem exec_fdcReadSectorMulti_of_first_overruns :
    exec (.fdcReadSectorMulti fl) s = .next (commandFailed (0x9#4 ++ fl) 0x10 s) := by
  rw [exec_fdcReadSectorMulti_of_overruns hdrive hdisk hcount (fun i hi => absurd hi (Nat.not_lt_zero i))
    ((atSector_zero d s.wd).symm ▸ h), atSector_zero]
  rfl

theorem exec_fdcWriteSectorMulti_of_first_overruns (hw : d.writeProtected = false) :
    exec (.fdcWriteSectorMulti fl) s = .next (commandFailed (0xB#4 ++ fl) 0x10 s) := by
  rw [exec_fdcWriteSectorMulti_of_overruns hdrive hdisk hcount (fun i hi => absurd hi (Nat.not_lt_zero i))
    ((atSector_zero d s.wd).symm ▸ h) fl hw, atSector_zero]
  show Host.Outcome.next { commandFailed (0xB#4 ++ fl) 0x10 s with disk := some d } = _
  rw [← hdisk]
  rfl

end

/-- Settles O29: each failure is `wdFail` from the start of its command, after the sectors moved before it. -/
theorem failedCommandsReportTheirStatus : Obligations.FailedCommandsReportTheirStatus := by
  intro s fl failed hfailed
  obtain rfl : failed = fun c st => commandFailed c st s := funext fun c => funext (hfailed c)
  have notFound (c : Byte) := wdFail_commandBegun c (st := 0x10) rfl s
  have shielded (c : Byte) := wdFail_commandBegun c (st := 0x40) rfl s
  refine ⟨fun hnone => ?_, fun d hdrive hdisk => ?_⟩
  · have unseen (c : Byte) : driveDisk (commandBegun c s) = none := driveDisk_eq_none hnone
    rw [exec_fdcReadSector, exec_fdcReadSectorMulti, exec_fdcWriteSector, exec_fdcWriteSectorMulti,
      exec_fdcReadAddress, cmdReadSector_of_none (unseen _), cmdReadMulti_of_none (unseen _),
      cmdWriteSector_of_none (unseen _), cmdWriteMulti_of_none (unseen _), cmdReadAddress_of_none (unseen _)]
    simp only [notFound, and_self]
  have seen (c : Byte) : driveDisk (commandBegun c s) = some d := (driveDisk_driveA hdrive).trans hdisk
  have positive (hcount : s.wd.dmaCount ≠ 0) : 0 < s.wd.dmaCount.toNat :=
    Nat.pos_of_ne_zero fun e => hcount (BitVec.eq_of_toNat_eq e)
  refine ⟨fun hw => ?_, fun h => ⟨?_, fun hcount => ?_, fun hw => ⟨?_, fun hcount => ?_⟩⟩,
    fun n after hafter hn h hend => ?_⟩
  · rw [exec_fdcWriteSector, exec_fdcWriteSectorMulti, cmdWriteSector_of_protected (seen _) hw,
      cmdWriteMulti_of_protected (seen _) hw]
    simp only [shielded, and_self]
  · rw [exec_fdcReadSector, cmdReadSector_of_overruns (seen _) h, notFound]
  · exact exec_fdcReadSectorMulti_of_first_overruns hdrive hdisk (positive hcount) h fl
  · rw [exec_fdcWriteSector, cmdWriteSector_of_overruns (seen _) hw h, notFound]
  · exact exec_fdcWriteSectorMulti_of_first_overruns hdrive hdisk (positive hcount) h fl hw
  · rw [hafter, hafter]
    exact ⟨⟨_, exec_fdcReadSectorMulti_of_overruns hdrive hdisk hn h hend fl⟩,
      fun hw => ⟨_, exec_fdcWriteSectorMulti_of_overruns hdrive hdisk hn h hend fl hw⟩⟩

end Sys2Proof

namespace Sys2Proof
open Machine

/-! ## FORCE INTERRUPT and the track commands (43_wd1772_dma.md R324..R326) -/

/-- Raising the line again gives no edge. -/
theorem fdcLine_true_idem (p : Config.Params) (m : Mfp) : fdcLine p true (fdcLine p true m) = fdcLine p true m := by
  have high : bit (fdcLine p true m).gpip 5 = true := by
    unfold fdcLine bit
    simp
  have gpip : (fdcLine p true m).gpip ||| 0x20#8 = (fdcLine p true m).gpip := by
    unfold fdcLine
    simp [BitVec.or_assoc]
  generalize fdcLine p true m = raised at high gpip
  unfold fdcLine
  simp [high, gpip]

theorem exec_fdcForceInterrupt (fl : BitVec 4) (s : State) :
    exec (.fdcForceInterrupt fl) s = .next (cmdForceInterrupt (commandBegun (0xD#4 ++ fl) s)) :=
  congrArg (fun u => Host.Outcome.next (cmdForceInterrupt u)) (wdBegin_eq _ s)

theorem exec_fdcReadTrack (fl : BitVec 4) (s : State) :
    exec (.fdcReadTrack fl) s = cmdReadTrack (commandBegun (0xE#4 ++ fl) s) :=
  congrArg cmdReadTrack (wdBegin_eq _ s)

theorem exec_fdcWriteTrack (fl : BitVec 4) (s : State) :
    exec (.fdcWriteTrack fl) s = cmdWriteTrack (commandBegun (0xF#4 ++ fl) s) :=
  congrArg cmdWriteTrack (wdBegin_eq _ s)

/-- The status with BUSY set and cleared again. -/
theorem busy_set_cleared (v : Byte) : (v ||| 0x01#8) &&& 0xFE#8 = v &&& 0xFE#8 := by
  revert v
  decide

theorem cmdForceInterrupt_commandBegun (c : Byte) (s : State) : cmdForceInterrupt (commandBegun c s)
    = { withIrq (fdcLine s.params true s.mfp) s with
      wd := { s.wd with command := c, status := s.wd.status &&& 0xFE#8, multi := false } } := by
  have line : fdcLine (commandBegun c s).params true (commandBegun c s).mfp = fdcLine s.params true s.mfp :=
    fdcLine_true_idem s.params s.mfp
  have status : (commandBegun c s).wd.status &&& 0xFE#8 = s.wd.status &&& 0xFE#8 := busy_set_cleared s.wd.status
  rw [cmdForceInterrupt_eq, line, status]
  rfl

/-- The state of a track command under `havoc` once its registers are drawn (log 31). -/
def trackDrawn (c : Byte) (s : State) : State :=
  havocRegs { withIrq (fdcPulse s.params s.mfp) s with
    wd := { s.wd with command := c, status := (s.wd.status ||| 0x01#8) &&& 0xFE#8, multi := false } }

theorem havocRegs_wdComplete (c : Byte) (s : State) :
    havocRegs (wdComplete (commandBegun c s)) = trackDrawn c s := by
  rw [wdComplete_eq]
  rfl

theorem exec_fdcReadTrack_of_havoc (fl : BitVec 4) {s : State} (h : s.params.trackCmds = .havoc) :
    exec (.fdcReadTrack fl) s = .next (havocRam (trackDrawn (0xE#4 ++ fl) s)) := by
  rw [exec_fdcReadTrack, cmdReadTrack_of_havoc (s := commandBegun (0xE#4 ++ fl) s) h, havocRegs_wdComplete]

theorem exec_fdcWriteTrack_of_havoc (fl : BitVec 4) {s : State} (h : s.params.trackCmds = .havoc) :
    exec (.fdcWriteTrack fl) s = .next (havocTrack (trackDrawn (0xF#4 ++ fl) s)) := by
  rw [exec_fdcWriteTrack, cmdWriteTrack_of_havoc (s := commandBegun (0xF#4 ++ fl) s) h, havocRegs_wdComplete]

/-! READ TRACK. -/

/-- A new generation of RAM leaves the ROM and the I/O mirror (R324). -/
theorem storedByte_havocRam {s : State} {k : Nat} (h : tosBase s.params ≤ k) :
    storedByte (havocRam s) k = storedByte s k := by
  have listed : memFind (havocRam s).mem k = memFind s.mem k :=
    memFind_dropRam (Nat.le_trans (ramBytes_le s.params) h) s.mem
  have unlisted : powerOnByte (havocRam s) k = powerOnByte s k := by
    unfold powerOnByte
    rw [havocRam_params, if_pos h, if_pos h]
  unfold storedByte
  rw [listed, unlisted]

/-! WRITE TRACK. -/

/-- Where the image track at the head and side begins (R325). -/
def trackOffset (w : Wd) (d : Floppy) : Nat := (w.head * d.sides + w.side.toNat) * d.spt * d.bps

theorem drawBytes_length (n : Nat) (s : State) : (drawBytes n s).1.length = n := by
  induction n generalizing s with
  | zero => rfl
  | succ n ih => exact congrArg (· + 1) (ih (nextDraw s))

theorem havocTrack_wd (s : State) : (havocTrack s).wd = s.wd := by
  rw [havocTrack_frame]

theorem havocTrack_disk_none {s : State} (h : s.disk = none) : (havocTrack s).disk = none := by
  unfold havocTrack
  rw [h]
  exact h

/-- The bytes drawn are those of the track that the image holds. -/
theorem havocTrack_disk_some {s : State} {d : Floppy} (h : s.disk = some d) :
    ∃ bs : List Byte, (havocTrack s).disk = some (patchPayload d (trackOffset s.wd d) bs)
      ∧ bs.length = min (d.spt * d.bps) (d.payload.length - trackOffset s.wd d) := by
  unfold havocTrack
  rw [h]
  exact ⟨_, rfl, drawBytes_length _ s⟩

/-- A patch cut off at the end of the image, which may begin past it. -/
theorem patchPayload_cut {d : Floppy} {off n : Nat} {bs : List Byte}
    (hbs : bs.length = min n (d.payload.length - off)) :
    (patchPayload d off bs).payload.length = d.payload.length
      ∧ ∀ k, k < off ∨ off + n ≤ k → (patchPayload d off bs).payload.getD k 0 = d.payload.getD k 0 := by
  by_cases within : off ≤ d.payload.length
  · have fits : off + bs.length ≤ d.payload.length := by omega
    refine ⟨patchPayload_length d off bs fits, fun k outside => ?_⟩
    rw [patchPayload_byte d off bs fits, if_neg (by omega)]
  · have nothing : bs = [] := List.eq_nil_of_length_eq_zero (by omega)
    have same : (patchPayload d off bs).payload = d.payload := by
      unfold patchPayload
      simp [nothing]
    rw [same]
    exact ⟨rfl, fun _ _ => rfl⟩

/-- Settles O35: the start of FORCE INTERRUPT has raised the line already, and the track commands are refused or leave
the draws of `trackDrawn`, of RAM and of the image track. -/
theorem forceInterruptAndTrackCommands : Obligations.ForceInterruptAndTrackCommands := by
  intro s fl
  refine ⟨?_, fun refuse => ⟨?_, ?_⟩, fun havoc => ⟨?_, ?_⟩⟩
  · rw [exec_fdcForceInterrupt, cmdForceInterrupt_commandBegun]
  · exact (exec_fdcReadTrack fl s).trans (cmdReadTrack_of_refuse refuse)
  · exact (exec_fdcWriteTrack fl s).trans (cmdWriteTrack_of_refuse refuse)
  · exact ⟨_, exec_fdcReadTrack_of_havoc fl havoc, rfl, fun hm => ⟨havocRam_memWf hm,
      fun k outside => storedByte_havocRam (s := trackDrawn (0xE#4 ++ fl) s) (Nat.le_of_not_lt outside)⟩⟩
  · refine ⟨_, exec_fdcWriteTrack_of_havoc fl havoc, ?_,
      fun empty => havocTrack_disk_none empty, fun d hdisk => ?_⟩
    · rw [havocTrack_wd]
      exact havocTrack_frame _
    · obtain ⟨bs, image, cut⟩ := havocTrack_disk_some (s := trackDrawn (0xF#4 ++ fl) s) hdisk
      exact ⟨_, image, patchPayload_cut cut⟩

end Sys2Proof

namespace Sys2Proof
open Machine

/-! ## The ACIA (44_acia_ikbd.md R360..R366, R370) -/

/-! The accesses and the pacing as whole states, one equation per branch. -/

theorem aciaControlWrite_of_masterReset {v : Byte} (h : v &&& 0x03#8 = 0x03#8) (s : State) :
    aciaControlWrite v s = { withIrq (aciaLine s.params true s.mfp) s with
      acia := { s.acia with control := v, latch := 0x00, hasLatched := false, status := 0x02, wait := 0 } } :=
  (if_pos h).trans (setGpip_acia true _)

theorem aciaControlWrite_of_not_masterReset {v : Byte} (h : v &&& 0x03#8 ≠ 0x03#8) (s : State) :
    aciaControlWrite v s = { s with acia := { s.acia with control := v } } := if_neg h

theorem aciaDataRead_snd (s : State) : (aciaDataRead s).2 = { withIrq (aciaLine s.params true s.mfp) s with
    acia := { s.acia with hasLatched := false, status := s.acia.status &&& 0x4E#8 } } := setGpip_acia true _

theorem aciaLatch_eq (b : Byte) (q : List Byte) (s : State) :
    aciaLatch b q s = { withIrq (aciaLine s.params false s.mfp) s with
      acia := { s.acia with
        latch := b, hasLatched := true, queue := q, status := s.acia.status ||| 0x81#8, wait := 10240 } } :=
  setGpip_acia false _

section
variable {s : State} (n : Nat)

theorem aciaSync_of_latched (h : s.acia.hasLatched = true) : aciaSync n s = s := if_pos h

theorem aciaSync_of_empty (h : s.acia.hasLatched = false) (hq : s.acia.queue = []) :
    aciaSync n s = { s with acia := { s.acia with wait := 0 } } := by
  unfold aciaSync
  rw [hq, h]
  rfl

theorem aciaSync_of_queued (h : s.acia.hasLatched = false) {b : Byte} {q : List Byte} (hq : s.acia.queue = b :: q) :
    aciaSync n s = if s.acia.wait - n ≤ 0 then aciaLatch b q s
      else { s with acia := { s.acia with wait := s.acia.wait - n } } := by
  unfold aciaSync
  rw [hq, h]
  rfl

end

/-- Settles O56: each branch of the pacing is one of its clauses, and a latched byte is `aciaLatch`. -/
theorem aciaSyncLatchesOneByte : Obligations.AciaSyncLatchesOneByte := by
  refine fun s n => ⟨aciaSync_of_latched n, aciaSync_of_empty n, fun b q h hq => ⟨fun waiting => ?_, fun expired => ?_⟩⟩
  · rw [aciaSync_of_queued n h hq, if_neg (by omega)]
  · rw [aciaSync_of_queued n h hq, if_pos expired, aciaLatch_eq]

/-! The IKBD's parser (R370). -/

/-- A byte that leaves a first byte outside the length table empties the buffer, whatever it held. -/
theorem ikbdReceive_of_unlisted {s : State} {b f : Byte} {ps : List Byte} (e : s.ikbd.cmd ++ [b] = f :: ps)
    (len : ikbdLenOf s.params f = none) : ikbdReceive b s = clearCmd s := by
  unfold ikbdReceive
  rw [e]
  dsimp only
  rw [List.headD_cons, len]

/-- Of the length table's rows, those for as many bytes as a command has are each the key of an operation (R145). -/
theorem ikbdInstr_isSome_of_mem (ps : List Byte) :
    ∀ e ∈ ikbdLenDefault, e.2 = ps.length + 1 → (ikbdInstr e.1 ps).isSome = true := by
  intro e he len
  have listed {ps : List Byte} (len : e.2 = ps.length + 1)
      (rows : (ikbdLenDefault.filter (·.2 = ps.length + 1)).all (fun e => (ikbdInstr e.1 ps).isSome) = true) :
      (ikbdInstr e.1 ps).isSome = true :=
    List.all_eq_true.1 rows e (List.mem_filter.2 ⟨he, decide_eq_true len⟩)
  match ps, len with
  | [], len | [_], len | [_, _], len | [_, _, _], len | [_, _, _, _], len | [_, _, _, _, _], len
  | [_, _, _, _, _, _], len => exact listed len rfl
  | _ :: _ :: _ :: _ :: _ :: _ :: _ :: ps, len =>
    have short : ∀ e ∈ ikbdLenDefault, e.2 ≤ 7 := by decide
    have fits := len ▸ short e he
    simp only [List.length_cons] at fits
    omega

theorem exists_ikbdInstr {c : Byte} {ps : List Byte} (len : ikbdLen c = some (ps.length + 1)) :
    ∃ i, ikbdInstr c.toNat ps = some i :=
  Option.isSome_iff_exists.1 (ikbdInstr_isSome_of_mem ps _ (tableFind_mem len) rfl)

/-- Settles O40: the accesses are the equations above, and the parser's three answers are those of `ikbdReceive`, the
last byte's being what the row of its frame does. -/
theorem aciaRegisterAccesses : Obligations.AciaRegisterAccesses := by
  intro s v f ps
  refine ⟨rfl, fun h => ?control, fun h => ?masterReset, ?dataRead, fun buffer => ⟨fun len => ?unlisted,
    fun n len more => ?kept, fun n len table last => ?completed⟩⟩
  case control => exact congrArg Host.Outcome.next (aciaControlWrite_of_not_masterReset h s)
  case masterReset => exact congrArg Host.Outcome.next (aciaControlWrite_of_masterReset h s)
  case dataRead => exact congrArg (fun t => Host.Outcome.next (answer8 s.acia.latch t)) (aciaDataRead_snd s)
  case unlisted => exact congrArg Host.Outcome.next (ikbdReceive_of_unlisted buffer len)
  case kept =>
    have received := ikbdReceive_withCmd len buffer
    rw [if_neg more] at received
    exact congrArg Host.Outcome.next received
  case completed =>
    have received := ikbdReceive_withCmd len buffer
    rw [if_pos last] at received
    subst last
    obtain ⟨i, row⟩ := exists_ikbdInstr table
    have frame := (FrameOf.ikbd table row).decode_append []
    rw [List.append_nil] at frame
    exact ⟨i, frame, _, exec_ikbdInstr row s, congrArg Host.Outcome.next received⟩

/-! The status follows the latch (R366). -/

/-- The invariant depends on the status and the latch's flag alone. -/
theorem AciaOk.of_same {s t : State} (hstatus : t.acia.status = s.acia.status)
    (hlatched : t.acia.hasLatched = s.acia.hasLatched) (hs : AciaOk s) : AciaOk t := by
  unfold AciaOk
  rw [hstatus, hlatched]
  exact hs

theorem AciaOk.of_irq {s t : State} (h : IrqFrame s t) (hs : AciaOk s) : AciaOk t :=
  hs.of_same (congrArg Acia.status h.acia) (congrArg Acia.hasLatched h.acia)

theorem setGpip_aciaOk (l : GpipLine) (b : Bool) {s : State} (hs : AciaOk s) : AciaOk (setGpip l b s) :=
  hs.of_irq (setGpip_irq l b s)

/-- A control write leaves the status and the latch, but for a master reset, which empties both (R361). -/
theorem aciaControlWrite_aciaOk (v : Byte) {s : State} (hs : AciaOk s) : AciaOk (aciaControlWrite v s) := by
  by_cases h : v &&& 0x03#8 = 0x03#8
  · rw [aciaControlWrite_of_masterReset h]
    exact rfl
  · rw [aciaControlWrite_of_not_masterReset h]
    exact hs

/-- A data read clears RDRF and IRQ and keeps TDRE, with a byte latched or not (R362). -/
theorem aciaDataRead_aciaOk {s : State} (hs : AciaOk s) : AciaOk (aciaDataRead s).2 := by
  have cleared : s.acia.status &&& 0x4E#8 = 0x02#8 := by
    rw [show s.acia.status = _ from hs]
    cases s.acia.hasLatched <;> rfl
  rw [aciaDataRead_snd]
  exact cleared

/-- A byte is latched where none was, and RDRF and IRQ are set with it (R365). -/
theorem aciaLatch_aciaOk (b : Byte) (q : List Byte) {s : State} (h : s.acia.hasLatched = false) (hs : AciaOk s) :
    AciaOk (aciaLatch b q s) := by
  have raised : s.acia.status ||| 0x81#8 = 0x83#8 := by
    rw [show s.acia.status = _ from hs, h]
    rfl
  rw [aciaLatch_eq]
  exact raised

theorem aciaSync_aciaOk (n : Nat) {s : State} (hs : AciaOk s) : AciaOk (aciaSync n s) := by
  cases h : s.acia.hasLatched with
  | true => rwa [aciaSync_of_latched n h]
  | false =>
    cases hq : s.acia.queue with
    | nil =>
      rw [aciaSync_of_empty n h hq]
      exact hs
    | cons b q =>
      rw [aciaSync_of_queued n h hq]
      split
      · exact aciaLatch_aciaOk b q h hs
      · exact hs

/-- A WD1772 command does not reach the ACIA. -/
theorem commandWrite_aciaOk {c : Byte} {s t : State} (h : commandWrite c s = .next t) (hs : AciaOk s) : AciaOk t :=
  commandWrite_closed (P := AciaOk)
    (wd := fun _ hs => hs)
    (gpip := fun l b hs => setGpip_aciaOk l b hs)
    (disk := fun _ hs => hs)
    (draws := fun _ hs => hs)
    (store := fun _ _ _ hs => hs)
    (havoc := fun hs => hs) h hs

/-- At reset the status is TDRE and no byte is latched (10_state.md R73). -/
theorem warmReset_aciaOk (s : State) : AciaOk (warmReset s) := rfl

theorem aciaOk_coreClosed : CoreClosed AciaOk where
  cpu _ _ hs := hs
  bus _ hs := hs
  draws _ hs := hs
  store _ _ _ hs := hs
  gpip l b hs := setGpip_aciaOk l b hs
  updateIrq hs := hs
  mfpWrite r v hs := hs.of_irq (mfpWrite_irq r v _)
  mfpIack hs := hs.of_irq (mfpIack_irq _)
  clearHbl hs := hs
  clearVbl hs := hs
  ymSelect _ hs := hs
  ymWriteData {s} v hs := by
    obtain ⟨y, w, e⟩ := ymWriteData_cases v s
    exact e ▸ hs
  aciaControl v hs := aciaControlWrite_aciaOk v hs
  aciaDataRead hs := aciaDataRead_aciaOk hs
  queue _ hs := hs
  ikbd _ hs := hs
  disk _ hs := hs
  wd _ _ _ hs := hs
  commandWrite := commandWrite_aciaOk

theorem aciaOk_closed : Closed AciaOk where
  toCoreClosed := aciaOk_coreClosed
  ops _ hs := hs
  host _ hs := hs
  loop _ _ hs := hs
  updateTimers n hs := hs.of_irq (updateTimers_irq n _)
  tickEvent t hs := hs.of_irq (tickEvent_irq t _)
  raiseHbl hs := hs
  raiseVbl hs := hs
  ymSync _ hs := hs
  audioPull _ hs := hs
  aciaSync n hs := aciaSync_aciaOk n hs
  row _ _ _ hs := hs
  counter _ hs := hs
  frameComplete hs := hs
  warmReset _ := warmReset_aciaOk _

/-- Settles O13: only the ACIA's own accesses, its pacing and a reset move the status or the latch, each in step. -/
theorem stepKeepsAciaStatus : Obligations.StepKeepsAciaStatus :=
  fun _ _ hs h => step_closed aciaOk_closed h hs

end Sys2Proof

namespace Sys2Proof
open Machine

/-! ## The palette (45_video_shifter.md R412, R413) -/

/-- Opaque alpha over three bytes, as shifted fields. -/
theorem append_eq_or_shifts (r g b : Byte) : ((0xFF#8 ++ r) ++ g) ++ b
    = 0xFF000000#32 ||| (r.setWidth 32 <<< 16) ||| (g.setWidth 32 <<< 8) ||| b.setWidth 32 := by
  have alpha : (0xFF000000#32) = (0xFF#8).setWidth 32 <<< 24 := rfl
  rw [alpha]
  ext i hi
  simp only [BitVec.getElem_append, BitVec.getElem_or, BitVec.getElem_shiftLeft, BitVec.getElem_setWidth]
  grind

/-- A 3-bit field of a word, shifted down and masked. -/
theorem shift_and_seven (w : Half) (n : Nat) : ((w >>> n) &&& 7#16).setWidth 3 = w.extractLsb' n 3 := by
  rw [BitVec.setWidth_and, BitVec.setWidth_ushiftRight_eq_extractLsb]
  exact BitVec.and_allOnes

/-- A mask that covers a 3-bit field does not change it. -/
theorem extract_and_mask {n : Nat} {m : Half} (h : m.extractLsb' n 3 = BitVec.allOnes 3) (w : Half) :
    (w &&& m).extractLsb' n 3 = w.extractLsb' n 3 := by
  rw [BitVec.extractLsb'_and, h, BitVec.and_allOnes]

/-- The nibble layout ignores the bits outside 0x0777 (R412). -/
theorem paletteColour_nibble_mask (w : Half) : paletteColour .nibble w = paletteColour .nibble (w &&& 0x0777#16) := by
  have field {n : Nat} (h : (0x0777#16).extractLsb' n 3 = BitVec.allOnes 3) := extract_and_mask h w
  unfold paletteColour
  dsimp only
  rw [field (n := 8) rfl, field (n := 4) rfl, field (n := 0) rfl]

/-- The packed layout ignores the bits outside 0x01FF (R412). -/
theorem paletteColour_packed_mask (w : Half) : paletteColour .packed w = paletteColour .packed (w &&& 0x01FF#16) := by
  have field {n : Nat} (h : (0x01FF#16).extractLsb' n 3 = BitVec.allOnes 3) := extract_and_mask h w
  unfold paletteColour
  dsimp only
  rw [field (n := 6) rfl, field (n := 3) rfl, field (n := 0) rfl]

/-- The palette's words are the stored ones (R412). -/
theorem videoPalette_eq (s : State) : videoPalette s
    = (List.range 16).map fun i => paletteColour s.params.paletteLayout (wordAt s (0xFF8240 + 2 * i)) := by
  have word (i : Nat) : be16 (ioByte s (0x0240 + 2 * i)) (ioByte s (0x0241 + 2 * i)) = wordAt s (0xFF8240 + 2 * i) := by
    unfold ioByte wordAt be16 ioBase
    congr 2 <;> omega
  unfold videoPalette
  simp only [word]

theorem videoPalette_getD (s : State) {i : Nat} (h : i < 16) :
    (videoPalette s).getD i 0 = paletteColour s.params.paletteLayout (wordAt s (0xFF8240 + 2 * i)) := by
  rw [videoPalette_eq, List.getD_eq_getElem _ _ (by simpa using h), List.getElem_map, List.getElem_range]

/-- Settles O58: each component is a masked 3-bit field of the word, and the palette reads the stored words. -/
theorem paletteWordsExpand : Obligations.PaletteWordsExpand := by
  refine ⟨fun _ => rfl, by decide, fun w colour hc => ?_, videoPalette_eq, by decide, by decide, by decide, by decide,
    fun w => ⟨paletteColour_nibble_mask w, paletteColour_packed_mask w⟩⟩
  have argb_fields (r g b : Half) : colour r g b = argb ((r &&& 7#16).setWidth 3) ((g &&& 7#16).setWidth 3)
      ((b &&& 7#16).setWidth 3) := (hc r g b).trans (append_eq_or_shifts _ _ _).symm
  have low : (w &&& 7#16).setWidth 3 = w.extractLsb' 0 3 := shift_and_seven w 0
  rw [argb_fields, argb_fields]
  simp only [shift_and_seven, low]
  exact ⟨rfl, rfl⟩

/-! ## A visible line (45_video_shifter.md R410, R411, R414) -/

/-- Element `k` of block `g` of a concatenation of blocks of `n`. -/
theorem getD_flatMap_range {α : Type} {f : Nat → List α} {n : Nat} (hf : ∀ i, (f i).length = n) (d : α)
    {m g k : Nat} (hg : g < m) (hk : k < n) : ((List.range m).flatMap f).getD (g * n + k) d = (f g).getD k d := by
  induction m with
  | zero => omega
  | succ m ih =>
    have hlen : ((List.range m).flatMap f).length = m * n := by
      simp [List.length_flatMap, hf, List.map_const']
    rw [List.range_succ, List.flatMap_append, List.flatMap_singleton]
    obtain before | rfl := Nat.lt_or_eq_of_le (Nat.le_of_lt_succ hg)
    · have room := Nat.mul_le_mul_right n before
      rw [Nat.succ_mul] at room
      rw [List.getD_append _ _ _ _ (by omega), ih before]
    · rw [List.getD_append_right _ _ _ _ (by omega), hlen, Nat.add_sub_cancel_left]

/-- Bit `j` of a colour index is the bit of plane word `j`. -/
theorem pixelIndex_testBit (b : Nat) (ws : List Half) (j : Nat) :
    (pixelIndex b ws).testBit j = (ws.getD j 0).getLsbD b := by
  induction ws generalizing j with
  | nil => simp [pixelIndex]
  | cons w t ih =>
    have hw := (w.getLsbD b).toNat_lt
    cases j with
    | zero =>
      rw [pixelIndex, Nat.testBit_zero, Nat.add_mul_mod_self_left, List.getD_cons_zero]
      cases w.getLsbD b <;> rfl
    | succ j =>
      have half : ((w.getLsbD b).toNat + 2 * pixelIndex b t) / 2 = pixelIndex b t := by omega
      rw [pixelIndex, Nat.testBit_succ, half, ih, List.getD_cons_succ]

theorem pixelIndex_lt (b : Nat) (ws : List Half) : pixelIndex b ws < 2 ^ ws.length := by
  induction ws with
  | nil => exact Nat.one_pos
  | cons w t ih =>
    have hw := (w.getLsbD b).toNat_lt
    rw [pixelIndex, List.length_cons, Nat.pow_succ]
    omega

theorem planeWords_length (s : State) (vc : Addr) (planes g : Nat) : (planeWords s vc planes g).length = planes := by
  simp [planeWords]

theorem planeWords_getD (s : State) (vc : Addr) {planes j : Nat} (g : Nat) (h : j < planes) :
    (planeWords s vc planes g).getD j 0 = peek16 s (vc + BitVec.ofNat 24 (2 * (g * planes + j))) := by
  simp [planeWords, h]

/-- The copies of pixel `x` of a group: two where pixels are doubled. -/
theorem groupPixels_getD (pal : List Word) (d : Bool) (ws : List Half) {x e : Nat} (hx : x < 16)
    (he : e < if d then 2 else 1) :
    (groupPixels pal d ws).getD (x * (if d then 2 else 1) + e) 0 = pal.getD (pixelIndex (15 - x) ws) 0 := by
  unfold groupPixels
  cases d with
  | false =>
    obtain rfl : e = 0 := Nat.lt_one_iff.1 he
    exact getD_flatMap_range (n := 1) (fun _ => rfl) 0 hx he
  | true =>
    refine (getD_flatMap_range (n := 2) (fun _ => rfl) 0 hx he).trans ?_
    obtain rfl | rfl : e = 0 ∨ e = 1 := by change e < 2 at he; omega
    · rfl
    · rfl

/-- The pixels of a line: every copy of pixel `x` of group `g` has the colour of its index in the planes (R414). -/
theorem decodeLine_pixel (s : State) (vc : Addr) {planes groups g x : Nat} (d : Bool) (hp : planes ≤ 4)
    (hg : g < groups) (hx : x < 16) : ∃ i, i < 2 ^ planes
      ∧ (∀ j, j < planes →
        i.testBit j = (peek16 s (vc + BitVec.ofNat 24 (2 * (g * planes + j)))).getLsbD (15 - x))
      ∧ ∀ e, e < (if d then 2 else 1) → (decodeLine s vc planes groups d).getD
          (g * (if d then 32 else 16) + (x * (if d then 2 else 1) + e)) 0
        = paletteColour s.params.paletteLayout (wordAt s (0xFF8240 + 2 * i)) := by
  have index_lt := pixelIndex_lt (15 - x) (planeWords s vc planes g)
  rw [planeWords_length] at index_lt
  have in_palette : pixelIndex (15 - x) (planeWords s vc planes g) < 16 :=
    Nat.lt_of_lt_of_le index_lt (Nat.pow_le_pow_right (by decide) hp)
  refine ⟨_, index_lt, fun j hj => ?_, fun e he => ?_⟩
  · rw [pixelIndex_testBit, planeWords_getD s vc g hj]
  · have in_group : x * (if d then 2 else 1) + e < if d then 32 else 16 := by grind
    unfold decodeLine
    rw [getD_flatMap_range (fun _ => Closed.groupPixels_length _ d _) 0 hg in_group, groupPixels_getD _ d _ hx he,
      videoPalette_getD s in_palette]

/-- The shifter's resolution is the low two bits of its register (R410). -/
theorem resolution_eq (s : State) :
    ((ioByte s 0x0260).extractLsb' 0 2).toNat = (storedByte s 0xFF8260 &&& 0x03#8).toNat := by
  rw [BitVec.extractLsb'_toNat, Nat.shiftRight_zero, BitVec.toNat_and]
  exact (Nat.and_two_pow_sub_one_eq_mod _ 2).symm

/-- Settles O57: a line is the concatenation of its groups' pixels, and each pixel's index is read off the planes. -/
theorem linesAreDecodedFromThePlanes : Obligations.LinesAreDecodedFromThePlanes := by
  intro s vc row res hres
  have hr : ((ioByte s 0x0260).extractLsb' 0 2).toNat = res.toNat := hres ▸ resolution_eq s
  unfold blitLine
  rw [hr]
  refine ⟨fun high => ?_, fun low => ?_⟩
  · obtain rfl | rfl := high <;> rfl
  · obtain rfl | rfl := low
    · refine ⟨decodeLine s vc 4 20 true, rfl, Closed.decodeLine_length s vc 4 20 true,
        fun g x hx => ⟨fun _ hg => ?_, fun h => absurd h (by decide)⟩⟩
      obtain ⟨i, hi, bits, pixel⟩ := decodeLine_pixel s vc true (planes := 4) (by decide) hg hx
      refine ⟨i, hi, bits, fun e he => ?_⟩
      have place : 32 * g + 2 * x + e = g * 32 + (x * 2 + e) := by omega
      exact place ▸ pixel e he
    · refine ⟨decodeLine s vc 2 40 false, rfl, Closed.decodeLine_length s vc 2 40 false,
        fun g x hx => ⟨fun h => absurd h (by decide), fun _ hg => ?_⟩⟩
      obtain ⟨i, hi, bits, pixel⟩ := decodeLine_pixel s vc false (planes := 2) (by decide) hg hx
      refine ⟨i, hi, bits, ?_⟩
      have place : 16 * g + x = g * 16 + (x * 1 + 0) := by omega
      exact place ▸ pixel 0 Nat.one_pos

end Sys2Proof

namespace Sys2Proof
open Machine

/-! ## The warm reset (70_reset_and_hazards.md R491) -/

/-- What the bus shows depends on the parameters and the bytes stored alone (20_memory.md R97). -/
theorem sameBytes_of_storedByte {s t : State} (hp : t.params = s.params)
    (hk : ∀ k, storedByte t k = storedByte s k) : SameBytes s t := by
  refine ⟨fun k _ => hk k, fun a => ?_⟩
  unfold peekByte romByte
  simp only [hp, hk]

/-- The ROM's mirror shows the first longs of the ROM (20_memory.md R82, R92). -/
theorem romLong_eq_peekLong (s : State) {a : Addr} (h : a.toNat + 3 < 8) : romLong s a.toNat = peekLong s a := by
  have mirror (n : Nat) (hn : n ≤ 3) : peekByte s (a + BitVec.ofNat 24 n) = romByte s (a.toNat + n) := by
    have place : (a + BitVec.ofNat 24 n).toNat = a.toNat + n := by
      rw [BitVec.toNat_add, BitVec.toNat_ofNat]
      omega
    unfold peekByte
    rw [region_low (by omega), place]
  have first : peekByte s a = romByte s a.toNat := by simpa using mirror 0 (by decide)
  unfold romLong peekLong be32
  rw [first, ← mirror 1 (by decide), ← mirror 2 (by decide), ← mirror 3 (by decide)]
  rfl

/-- Memory is what it was before a warm reset. -/
theorem warmReset_sameBytes (s : State) : SameBytes s (warmReset s) :=
  sameBytes_of_storedByte (warmReset_params s) fun k => storedByte_congr rfl rfl rfl k

/-- The core starts from the first two longs of the ROM (40_cpu_integration.md R171). -/
theorem warmReset_regs (s : State) : (warmReset s).cpu.regs
    = { State.reset.cpu.regs with ssp := peekLong s 0, pc := peekLong s 4 } := by
  rw [← romLong_eq_peekLong s (a := 0) (by decide), ← romLong_eq_peekLong s (a := 4) (by decide)]
  rfl

theorem emulatorStep_latch {s : State} (ha : s.loop.act = .latch) : emulatorStep s = .next (beforeFrame s) := by
  unfold emulatorStep
  rw [ha]

theorem beforeFrame_running {s : State} (hr : s.loop.running = true) : beforeFrame s = startFrame s := by
  unfold beforeFrame
  rw [if_pos hr]

theorem beforeFrame_reset {s : State} (hr : s.loop.running = false) (hq : s.loop.request = some .reset) :
    beforeFrame s = warmReset s := by
  unfold beforeFrame
  rw [hr, hq]
  rfl

theorem beforeFrame_ended {s : State} (hr : s.loop.running = false) (hq : s.loop.request ≠ some .reset) :
    beforeFrame s = gotoAct .ended s := by
  unfold beforeFrame
  rw [if_neg (Bool.eq_false_iff.1 hr)]
  split
  · contradiction
  · rfl
  · rfl

/-- Settles O23: the test before the frame finds the reset asked for, which loads every device and the core and leaves
memory, the disk and the marks. -/
theorem warmResetKeepsMemoryAndDisk : Obligations.WarmResetKeepsMemoryAndDisk := by
  intro s ha hr hq
  have step : emulatorStep s = .next (warmReset s) := by
    rw [emulatorStep_latch ha, beforeFrame_reset hr hq]
  exact ⟨warmReset s, step, warmReset_sameBytes s, rfl, rfl, rfl, rfl, rfl, rfl, rfl, rfl, rfl, rfl, rfl, rfl, rfl,
    rfl, rfl, warmReset_regs s⟩

end Sys2Proof

namespace Sys2Proof
open Machine

/-! ## The actions of a frame (46_frame_loop.md R430..R440) -/

/-- Two bytes above a zero byte, as shifted fields. -/
theorem append_zero_eq_or_shifts (h m : Byte) :
    (h ++ m) ++ 0#8 = h.setWidth 24 <<< 16 ||| m.setWidth 24 <<< 8 := by
  ext i hi
  simp only [BitVec.getElem_append, BitVec.getElem_or, BitVec.getElem_shiftLeft, BitVec.getElem_setWidth,
    BitVec.getElem_zero]
  grind

/-- A frame starts on line 0, with the video base latched (R434). -/
theorem startFrame_eq (s : State) : startFrame s = { s with
    video := { s.video with counter :=
      (storedByte s 0xFF8201).setWidth 24 <<< 16 ||| (storedByte s 0xFF8203).setWidth 24 <<< 8 }
    loop := { s.loop with act := .cpuMain, scanline := 0 } } := by
  rw [← append_zero_eq_or_shifts]
  rfl

/-- The boundary of a batch goes on with the batch or leaves it, on the same line. -/
theorem batchBoundary_loop (n : Nat) (next : Act) (s : State) :
    ((batchBoundary n next s).loop.act = s.loop.act ∨ (batchBoundary n next s).loop.act = next)
      ∧ (batchBoundary n next s).loop.scanline = s.loop.scanline := by
  unfold batchBoundary
  split
  · exact ⟨.inr rfl, rfl⟩
  · exact ⟨.inl rfl, rfl⟩

/-- No boundary of the core reaches the frame loop. -/
theorem coreStep_loop {s t : State} (h : coreStep s = .next t) : t.loop = s.loop :=
  (coreClosed_of_sameView (P := fun u => u.loop = s.loop) fun view hu => view.loop.trans hu).coreStep h rfl

@[simp] theorem spend_loop_act (n : Nat) (s : State) : (spend n s).loop.act = s.loop.act := rfl

@[simp] theorem spend_loop_scanline (n : Nat) (s : State) : (spend n s).loop.scanline = s.loop.scanline := rfl

/-- A step of a batch goes on with the batch or leaves it, on the same line (40_cpu_integration.md R173). -/
theorem batchStep_loop {n : Nat} {next : Act} {s t : State} (h : batchStep n next s = .next t) :
    (t.loop.act = s.loop.act ∨ t.loop.act = next) ∧ t.loop.scanline = s.loop.scanline := by
  unfold batchStep at h
  split at h
  · cases h; exact ⟨.inr rfl, rfl⟩
  · split at h
    · cases h; exact ⟨.inr rfl, rfl⟩
    · obtain ⟨u, core, h⟩ := andThen_next h
      cases h
      have loop : u.loop = s.loop := coreStep_loop (s := nextDraw s) core
      have boundary := batchBoundary_loop n next (spend (instructionCost s) u)
      rwa [spend_loop_act, spend_loop_scanline, loop] at boundary

theorem isVisible_iff (line : Nat) : isVisible line = true ↔ 63 ≤ line ∧ line < 263 := by
  unfold isVisible
  rw [Bool.and_eq_true, decide_eq_true_iff, decide_eq_true_iff]

/-- The end of a line, by the line the loop counts (R430, R431). -/
theorem endLine_eq {s u : State} (h : u.loop = s.loop) : endLine u = if s.loop.scanline < 312
    then { u with loop := { u.loop with act := .cpuMain, scanline := s.loop.scanline + 1 } } else gotoAct .vbl u := by
  have line : u.loop.scanline = s.loop.scanline := congrArg Loop.scanline h
  have last : s.loop.scanline + 1 < Config.linesPerFrame ↔ s.loop.scanline < 312 := Nat.succ_lt_succ_iff
  unfold endLine
  rw [line]
  exact if_congr last rfl rfl

/-- The write-back stores the counter's three bytes at their registers, and nothing else (R435). -/
theorem videoWriteBack_bytes {s : State} (hs : MemOk s) :
    storedByte (videoWriteBack s) 0xFF8205 = s.video.counter.extractLsb' 16 8
      ∧ storedByte (videoWriteBack s) 0xFF8207 = s.video.counter.extractLsb' 8 8
      ∧ storedByte (videoWriteBack s) 0xFF8209 = s.video.counter.extractLsb' 0 8
      ∧ SameBytesBut (fun k => k = 0xFF8205 ∨ k = 0xFF8207 ∨ k = 0xFF8209) s (videoWriteBack s) := by
  have ok1 (v : Byte) : MemOk (storeByte (ioBase + 0x0205) v s) := storeByte_memWf hs _ _
  have ok2 (v w : Byte) : MemOk (storeByte (ioBase + 0x0207) w (storeByte (ioBase + 0x0205) v s)) :=
    storeByte_memWf (ok1 v) _ _
  unfold videoWriteBack
  refine ⟨?hi, ?mid, storedByte_storeByte_same (ok2 _ _) _ _, fun k hk => ?rest⟩
  case hi =>
    rw [storedByte_storeByte_ne (by decide), storedByte_storeByte_ne (by decide)]
    exact storedByte_storeByte_same hs _ _
  case mid =>
    rw [storedByte_storeByte_ne (by decide)]
    exact storedByte_storeByte_same (ok1 _) _ _
  case rest =>
    obtain ⟨hi, mid, lo⟩ : k ≠ 0xFF8205 ∧ k ≠ 0xFF8207 ∧ k ≠ 0xFF8209 := by simpa using hk
    exact (storedByte_storeByte_ne lo _ _).trans <| (storedByte_storeByte_ne mid _ _).trans <|
      storedByte_storeByte_ne hi _ _

/-- Settles O60: each action is one arm of the emulator's step, and no device or core in it moves the line the
loop counts. -/
theorem frameActionsRunInOrder : Obligations.FrameActionsRunInOrder := by
  intro s t act lineEnd h hact hend
  have goto (u : State) (a : Act) : gotoAct a u = act u a := (hact u a).symm
  have ends {u : State} (hu : u.loop = s.loop) : endLine u = lineEnd u := by
    rw [endLine_eq hu, hend, goto]
  have syncLoop : (aciaSync 512 s).loop = s.loop := (aciaSync_dev 512 s).loop
  have ticksLoop : (eventTicks s).loop = s.loop :=
    (tickEvent_irq .b (tickEvent .a s)).loop.trans (tickEvent_irq .a s).loop
  unfold emulatorStep at h
  refine ⟨?latch, ?stop, ?cpuMain, ?ymMain, ?mfpMain, ?cpuTail, ?ymTail, ?mfpTail, ?hbl, ?acia, ?writeBack, ?render,
    ?advance, ?eventTicks, ?vbl, ?complete, ?pace, ?ended⟩
  all_goals intro ha; rw [ha] at h; dsimp only at h
  case latch =>
    intro hr
    cases h
    rw [beforeFrame_running hr, startFrame_eq]
  case stop =>
    intro hr hq
    cases h
    rw [beforeFrame_ended hr hq, goto]
  case cpuMain | cpuTail =>
    obtain ⟨goesOn, line⟩ := batchStep_loop h
    exact ⟨h, ha ▸ goesOn, line⟩
  case ymMain | mfpMain | ymTail | mfpTail | hbl | advance | vbl | pace => cases h; exact goto _ _
  case ended => cases h; rfl
  case acia =>
    cases h
    simp only [isVisible_iff, goto, ends syncLoop]
  case writeBack =>
    intro hs
    cases h
    exact ⟨goto _ _, videoWriteBack_bytes hs⟩
  case render =>
    obtain ⟨u, blit, h⟩ := andThen_next h
    cases h
    exact ⟨u, blit, goto _ _⟩
  case eventTicks => cases h; exact ends ticksLoop
  case complete => cases h; exact ⟨_, rfl, goto _ _⟩

end Sys2Proof

namespace Sys2Proof
open Machine

/-! ## What user mode cannot change (60_exceptions.md R465, R466)

An access of the core either leaves its registers alone or takes a group-0 exception, which enters supervisor mode and
unwinds the instruction. So an instruction begun in user mode goes on only with the system state it began with. -/

/-- The supervisor bit is one of the system byte. -/
theorem srS_eq_of_systemByte {v w : Half} (h : v.extractLsb' 8 8 = w.extractLsb' 8 8) : srS v = srS w := by
  have bit5 (x : Half) : srS x = (x.extractLsb' 8 8).getLsbD 5 := by
    rw [BitVec.getLsbD_extractLsb']
    rfl
  rw [bit5 v, bit5 w, h]

/-- The system byte of SR and SSP, which only a privileged instruction or an exception writes. -/
def SameSystem (r r' : CoreRegs) : Prop := r'.sr.extractLsb' 8 8 = r.sr.extractLsb' 8 8 ∧ r'.ssp = r.ssp

theorem SameSystem.refl (r : CoreRegs) : SameSystem r r := ⟨rfl, rfl⟩

theorem SameSystem.trans {r r' r'' : CoreRegs} (h : SameSystem r r') (k : SameSystem r' r'') : SameSystem r r'' :=
  ⟨k.1.trans h.1, k.2.trans h.2⟩

theorem SameSystem.srS {r r' : CoreRegs} (h : SameSystem r r') : srS r'.sr = srS r.sr := srS_eq_of_systemByte h.1

/-- A mask that holds the system byte keeps it. -/
theorem systemByte_and {v m : Half} (h : m.extractLsb' 8 8 = 0xFF#8) :
    (v &&& m).extractLsb' 8 8 = v.extractLsb' 8 8 := by
  rw [BitVec.extractLsb'_and, h]
  exact BitVec.and_allOnes

/-- Bits of the low byte leave the system byte alone. -/
theorem systemByte_or {v m : Half} (h : m.extractLsb' 8 8 = 0#8) :
    (v ||| m).extractLsb' 8 8 = v.extractLsb' 8 8 := by
  rw [BitVec.extractLsb'_or, h, BitVec.or_zero]

theorem systemByte_srWithCcr (v : Half) (c : BitVec 5) :
    (srWithCcr v c).extractLsb' 8 8 = v.extractLsb' 8 8 :=
  (systemByte_or (by revert c; decide)).trans (systemByte_and (by decide))

theorem systemByte_srBtst (b : Bool) (v : Half) : (srBtst b v).extractLsb' 8 8 = v.extractLsb' 8 8 := by
  cases b
  · exact systemByte_or (by decide)
  · exact systemByte_and (by decide)

/-- The contract of the uninterpreted core: an unprivileged instruction of user mode keeps the system state (log 8). -/
theorem sameSystem_userRegs {cur : CoreRegs} (h : srS cur.sr = false) (r : CoreRegs) :
    SameSystem cur (userRegs cur r) := by
  refine ⟨(systemByte_or ?_).trans (systemByte_and (by decide)), ?_⟩
  · rw [BitVec.extractLsb'_and]
    exact BitVec.and_zero
  · unfold userRegs
    rw [h]
    rfl

/-! An access, an exception. -/

section
variable {s t : State}

theorem pushGroup0_regs {a : Addr} {rd prog : Bool} {sr0 : Half} (h : pushGroup0 a rd prog sr0 s = .next t) :
    t.cpu.regs = { s.cpu.regs with ssp := s.cpu.regs.ssp - 14#32 } := by
  unfold pushGroup0 at h
  dsimp only at h
  split at h
  · cases h
  · obtain ⟨u1, h1, h⟩ := andThen_next h
    obtain ⟨u2, h2, h⟩ := andThen_next h
    obtain ⟨u3, h3, h⟩ := andThen_next h
    obtain ⟨u4, h4, h⟩ := andThen_next h
    exact ((((frameWrite_dev h1).trans (frameWrite_dev h2)).trans (frameWrite_dev h3)).trans
      (frameWrite_dev h4)).trans (frameWrite_dev h) |>.regs

/-- Entering supervisor mode sets S (40_cpu_integration.md R175). -/
theorem srS_enterSupervisor (s : State) : srS (enterSupervisor s).cpu.regs.sr = true := by
  show srS ((s.cpu.regs.sr ||| 0x2000#16) &&& 0x7FFF#16) = true
  simp [srS]

theorem srS_srSetMask (v : Half) (l : BitVec 3) : srS (srSetMask v l) = srS v := by
  unfold srS srSetMask
  have low : (l.setWidth 16 <<< 8 : Half).getLsbD 13 = false := by revert l; decide
  rw [BitVec.getLsbD_or, low, BitVec.getLsbD_and]
  simp

/-- A group-0 exception enters supervisor mode and unwinds the instruction (60_exceptions.md R452, R454). -/
theorem takeGroup0_unwinds {a : Addr} {rd prog : Bool} {f : State → Word} (h : takeGroup0 a rd prog f s = .next t) :
    t.cpu.berr = true ∧ srS t.cpu.regs.sr = true := by
  unfold takeGroup0 at h
  obtain ⟨u, push, h⟩ := andThen_next h
  cases h
  have sr : u.cpu.regs.sr = (enterSupervisor s).cpu.regs.sr := by rw [pushGroup0_regs push]
  exact ⟨rfl, (congrArg srS sr).trans (srS_enterSupervisor s)⟩

/-- What an access of the core leaves of its registers: all of them, or the supervisor mode of a group-0 exception that
unwinds the instruction. -/
def RegsOrUnwound (s t : State) : Prop :=
  t.cpu.regs = s.cpu.regs ∨ (t.cpu.berr = true ∧ srS t.cpu.regs.sr = true)

theorem memRead_regs {w : Width} {a : Addr} {prog : Bool} (h : memRead w a prog s = .next t) :
    RegsOrUnwound s t := by
  unfold memRead busErrorRead at h
  split at h
  · split at h
    · cases h; exact .inl rfl
    · exact .inr (takeGroup0_unwinds h)
  · cases h; exact .inl (readRaw_dev w a s).regs

theorem memWrite_regs {w : Width} {a : Addr} {v : Word} (h : memWrite w a v s = .next t) : RegsOrUnwound s t := by
  unfold memWrite busErrorWrite at h
  split at h
  · split at h
    · cases h; exact .inl rfl
    · exact .inr (takeGroup0_unwinds h)
  · exact .inl (writeRaw_dev h).regs

theorem cpuRead_regs {w : Width} {a : Word} {prog : Bool} (h : cpuRead w a prog s = .next t) :
    RegsOrUnwound s t := by
  unfold cpuRead at h
  split at h
  · exact .inr (takeGroup0_unwinds h)
  · exact memRead_regs h

theorem cpuWrite_regs {w : Width} {a v : Word} (h : cpuWrite w a v s = .next t) : RegsOrUnwound s t := by
  unfold cpuWrite at h
  split at h
  · exact .inr (takeGroup0_unwinds h)
  · exact memWrite_regs h

theorem coreFetch_regs {a : Word} (h : coreFetch a s = .next t) : RegsOrUnwound s t := by
  unfold coreFetch at h
  split at h
  · exact cpuRead_regs h
  · split at h
    · cases h; exact .inl rfl
    · exact cpuRead_regs (s := dropAhead (busAddr a) (nextDraw s)) h

theorem coreRead_regs {w : Width} {a : Word} {prog : Bool} (h : coreRead w a prog s = .next t) :
    RegsOrUnwound s t := by
  unfold coreRead at h
  split at h
  · split at h
    · exact coreFetch_regs h
    · exact cpuRead_regs h
  all_goals exact cpuRead_regs h

/-- In supervisor mode an access stays there. -/
theorem RegsOrUnwound.supervisor (h : RegsOrUnwound s t) (hs : srS s.cpu.regs.sr = true) :
    srS t.cpu.regs.sr = true := by
  obtain regs | ⟨-, sup⟩ := h
  · rw [regs, hs]
  · exact sup

theorem shortFrame_supervisor {v : Byte} {sr : Half} {pc : Word} (h : shortFrame v sr pc s = .next t)
    (hs : srS s.cpu.regs.sr = true) : srS t.cpu.regs.sr = true := by
  unfold shortFrame at h
  refine CoreClosed.unwound (P := fun u => srS u.cpu.regs.sr = true) h
    (fun u hu => (cpuWrite_regs hu).supervisor hs) fun u h hu => ?_
  refine CoreClosed.unwound (P := fun u => srS u.cpu.regs.sr = true) h
    (fun u' hu' => (cpuWrite_regs hu').supervisor hu) fun u h hu => ?_
  cases h
  exact hu

/-- Whatever becomes of its frame, a short-frame exception ends in supervisor mode (60_exceptions.md R459). -/
theorem takeException_supervisor {v : Byte} {pc : Word} (h : takeException v pc s = .next t) :
    srS t.cpu.regs.sr = true :=
  shortFrame_supervisor h (srS_enterSupervisor s)

/-- The entry of an interrupt ends in supervisor mode too (60_exceptions.md R460). -/
theorem takeInterrupt_supervisor (h : takeInterrupt s = .next t) : srS t.cpu.regs.sr = true :=
  shortFrame_supervisor h ((srS_srSetMask _ _).trans (srS_enterSupervisor _))

theorem coreException_supervisor {n : Byte} {next : Word} (h : coreException n next s = .next t) :
    srS t.cpu.regs.sr = true := by
  unfold coreException traceAfter at h
  split at h
  · exact takeException_supervisor h
  · split at h
    · refine CoreClosed.unwound (P := fun u => srS u.cpu.regs.sr = true) h
        (fun u hu => takeException_supervisor hu) fun u h hu => ?_
      split at h
      · exact takeException_supervisor h
      · cases h; exact hu
    · cases h

end

/-! The instructions, one after another, from registers `r` in user mode. -/

/-- From registers `r`, supervisor mode was entered, or the system state is that of `r`. -/
def EntersOrKeeps (r : CoreRegs) (t : State) : Prop := srS t.cpu.regs.sr = true ∨ SameSystem r t.cpu.regs

section
variable {r : CoreRegs} {s t : State}

/-- After an access the instruction goes on with the system state it had; one that was unwound is in supervisor mode. -/
theorem EntersOrKeeps.access {o : Host.Outcome State Fault Refusal} {f : State → Host.Outcome State Fault Refusal}
    (h : unlessUnwound o f = .next t) (hs : SameSystem r s.cpu.regs) (ho : ∀ u, o = .next u → RegsOrUnwound s u)
    (hf : ∀ u, f u = .next t → SameSystem r u.cpu.regs → EntersOrKeeps r t) : EntersOrKeeps r t := by
  unfold unlessUnwound at h
  obtain ⟨u, done, h⟩ := andThen_next h
  obtain regs | ⟨berr, sup⟩ := ho u done
  · have same : SameSystem r u.cpu.regs := regs ▸ hs
    split at h
    · cases h; exact .inr same
    · exact hf u h same
  · rw [berr, if_pos rfl] at h
    cases h
    exact .inl sup

theorem fetchWord_entersOrKeeps {off : Word} {f : Half → State → Host.Outcome State Fault Refusal}
    (h : fetchWord off f s = .next t) (hs : SameSystem r s.cpu.regs)
    (hf : ∀ v u, f v u = .next t → SameSystem r u.cpu.regs → EntersOrKeeps r t) : EntersOrKeeps r t :=
  .access h hs (fun _ => coreFetch_regs) fun u => hf _ u

theorem fetchLong_entersOrKeeps {off : Word} {f : Word → State → Host.Outcome State Fault Refusal}
    (h : fetchLong off f s = .next t) (hs : SameSystem r s.cpu.regs)
    (hf : ∀ v u, f v u = .next t → SameSystem r u.cpu.regs → EntersOrKeeps r t) : EntersOrKeeps r t :=
  fetchWord_entersOrKeeps h hs fun _ _ h hu => fetchWord_entersOrKeeps h hu fun _ u => hf _ u

/-- The last change of a form of R152: its registers have the system state, whatever their pc. -/
theorem advanceWith_entersOrKeeps {n : Word} {r' : CoreRegs} (h : advanceWith n r' s = .next t)
    (hr : SameSystem r r') : EntersOrKeeps r t := by
  cases h
  exact .inr hr

theorem sameSystem_srMove (w : Width) (v : Word) (r : CoreRegs) : SameSystem r { r with sr := srMove w v r.sr } :=
  ⟨systemByte_srWithCcr _ _, rfl⟩

theorem sameSystem_setD (r : CoreRegs) (n : BitVec 3) (v : Word) : SameSystem r (setD r n v) := ⟨rfl, rfl⟩

theorem coreMoveImmAbs_entersOrKeeps {w : Width} (h : coreMoveImmAbs w s = .next t) (hs : SameSystem r s.cpu.regs) :
    EntersOrKeeps r t := by
  have store (n a v : Word) (u : State) (h : unlessUnwound (cpuWrite w a v u)
      (fun s2 => advanceWith n { s2.cpu.regs with sr := srMove w v s2.cpu.regs.sr } s2) = .next t)
      (hu : SameSystem r u.cpu.regs) : EntersOrKeeps r t :=
    .access h hu (fun _ => cpuWrite_regs) fun _ h hu => advanceWith_entersOrKeeps h (hu.trans (sameSystem_srMove ..))
  unfold coreMoveImmAbs at h
  cases w with
  | long =>
    exact fetchLong_entersOrKeeps h hs fun _ _ h hu => fetchLong_entersOrKeeps h hu fun _ u h hu => store _ _ _ u h hu
  | byte | word =>
    exact fetchWord_entersOrKeeps h hs fun _ _ h hu => fetchLong_entersOrKeeps h hu fun _ u h hu => store _ _ _ u h hu

theorem coreMoveAbsD_entersOrKeeps {w : Width} {n : BitVec 3} (h : coreMoveAbsD w n s = .next t)
    (hs : SameSystem r s.cpu.regs) : EntersOrKeeps r t :=
  fetchLong_entersOrKeeps h hs fun _ _ h hu => .access h hu (fun _ => cpuRead_regs) fun _ h hu =>
    advanceWith_entersOrKeeps h (hu.trans (sameSystem_srMove w _ _))

theorem coreMoveDAbs_entersOrKeeps {n : BitVec 3} (h : coreMoveDAbs n s = .next t) (hs : SameSystem r s.cpu.regs) :
    EntersOrKeeps r t :=
  fetchLong_entersOrKeeps h hs fun _ _ h hu => .access h hu (fun _ => cpuWrite_regs) fun _ h hu =>
    advanceWith_entersOrKeeps h (hu.trans (sameSystem_srMove ..))

theorem coreBtst_entersOrKeeps (h : coreBtst s = .next t) (hs : SameSystem r s.cpu.regs) : EntersOrKeeps r t :=
  fetchWord_entersOrKeeps h hs fun _ _ h hu => fetchLong_entersOrKeeps h hu fun _ _ h hu =>
    .access h hu (fun _ => cpuRead_regs) fun _ h hu =>
      advanceWith_entersOrKeeps h (hu.trans ⟨systemByte_srBtst _ _, rfl⟩)

/-- The end of an instruction changes no register, or takes the trace exception. -/
theorem endInstruction_entersOrKeeps {s0 : State} {o : Host.Outcome State Fault Refusal}
    (h : endInstruction s0 o = .next t) (ho : ∀ u, o = .next u → EntersOrKeeps r u) : EntersOrKeeps r t := by
  unfold endInstruction at h
  refine CoreClosed.unwound h ho fun u h hu => ?_
  split at h
  · exact .inl (takeException_supervisor h)
  · cases h; exact hu

/-- In user mode a privileged instruction is a privilege violation (60_exceptions.md R466). -/
theorem privileged_of_user {s0 : State} (f : State → Host.Outcome State Fault Refusal)
    (hs : srS s.cpu.regs.sr = false) : privileged s0 f s = takeException 8 s.cpu.ipc s := by
  unfold privileged
  rw [hs]
  rfl

theorem privileged_supervisor {s0 : State} {f : State → Host.Outcome State Fault Refusal}
    (h : privileged s0 f s = .next t) (hs : srS s.cpu.regs.sr = false) : srS t.cpu.regs.sr = true :=
  takeException_supervisor ((privileged_of_user f hs).symm.trans h)

/-- The uninterpreted core: between its accesses it writes user registers only, and its privileged ends and exceptions
enter supervisor mode. -/
theorem coreRun_entersOrKeeps {s0 : State} {fuel : Nat} {reads : List Word} (h : coreRun s0 fuel reads s = .next t)
    (user : srS r.sr = false) (hs : SameSystem r s.cpu.regs) : EntersOrKeeps r t := by
  induction fuel generalizing reads s with
  | zero => cases h
  | succ n ih =>
    have mode : srS s.cpu.regs.sr = false := hs.srS.trans user
    have commit (x : CoreRegs) : SameSystem r (commitRegs x s).cpu.regs := hs.trans (sameSystem_userRegs mode x)
    unfold coreRun at h
    split at h
    · exact .access h (commit _) (fun _ => coreRead_regs) fun _ h hu => ih h hu
    · exact .access h (commit _) (fun _ => cpuWrite_regs) fun _ h hu => ih h hu
    · exact endInstruction_entersOrKeeps h fun _ hu => by cases hu; exact .inr (commit _)
    · exact .inl (privileged_supervisor h mode)
    · exact .inl (coreException_supervisor h)
    · exact .inl (privileged_supervisor h mode)
    · cases h

theorem coreExecute_entersOrKeeps (h : coreExecute s = .next t) (user : srS r.sr = false)
    (hs : SameSystem r s.cpu.regs) : EntersOrKeeps r t := by
  have mode : srS s.cpu.regs.sr = false := hs.srS.trans user
  unfold coreExecute at h
  generalize coreForm s.cpu.ir = form at h
  cases form with
  | moveImmAbs w => exact endInstruction_entersOrKeeps h fun _ hu => coreMoveImmAbs_entersOrKeeps hu hs
  | moveAbsD w n => exact endInstruction_entersOrKeeps h fun _ hu => coreMoveAbsD_entersOrKeeps hu hs
  | moveDAbs n => exact endInstruction_entersOrKeeps h fun _ hu => coreMoveDAbs_entersOrKeeps hu hs
  | btstAbs => exact endInstruction_entersOrKeeps h fun _ hu => coreBtst_entersOrKeeps hu hs
  | beq d | bne d | bra d => exact endInstruction_entersOrKeeps h fun _ hu => by cases hu; exact .inr hs
  | moveq n v =>
    exact endInstruction_entersOrKeeps h fun _ hu => advanceWith_entersOrKeeps hu (hs.trans (sameSystem_srMove ..))
  | addq1 n =>
    exact endInstruction_entersOrKeeps h fun _ hu =>
      advanceWith_entersOrKeeps hu (hs.trans ⟨systemByte_srWithCcr _ _, rfl⟩)
  | stop | rte => exact .inl (privileged_supervisor h mode)
  | illegal | lineA | lineF => exact .inl (takeException_supervisor h)
  | other => exact coreRun_entersOrKeeps h user hs

end

/-- Settles O18: an interrupt or an exception enters supervisor mode, and any other instruction of user mode goes on
from access to access with the system state it began with. -/
theorem userModeKeepsSystemState : Obligations.UserModeKeepsSystemState := by
  intro s t user h
  show EntersOrKeeps s.cpu.regs t
  unfold coreStep at h
  dsimp only at h
  split at h
  · exact .inl (takeInterrupt_supervisor h)
  · split at h
    · cases h; exact .inr (.refl _)
    · exact fetchWord_entersOrKeeps (s := beginInstruction (markBerr false s)) h (.refl _) fun v u h hu =>
        coreExecute_entersOrKeeps (s := { u with cpu := { u.cpu with ir := v } }) h user hu

end Sys2Proof

namespace Sys2Proof
open Machine

/-! ## A stopped core at mask 7 (60_exceptions.md R467) -/

/-- The arbiter drives no level above 6 (40_cpu_integration.md R180, R181). -/
theorem iplOf_lt_seven (a : Arbiter) : iplOf a < 7 := by
  unfold iplOf
  repeat' split
  all_goals decide

/-- At mask 7 no level the arbiter drives is accepted (40_cpu_integration.md R179). -/
theorem interruptAccepted_maskSeven {s : State} (hs : IrqOk s) (mask : srMask s.cpu.regs.sr = 7) :
    interruptAccepted s.cpu = false := by
  obtain ⟨-, level⟩ := hs
  have below : s.cpu.ipl < 7 := level ▸ iplOf_lt_seven s.arb
  unfold interruptAccepted
  rw [mask]
  generalize s.cpu.ipl = l at below
  revert l
  decide

/-- The core runs no instruction: its registers stay, and so does its stop. -/
def CoreRests (s t : State) : Prop := t.cpu.stopped = s.cpu.stopped ∧ t.cpu.regs = s.cpu.regs

section
variable {s t : State}

theorem CoreRests.of_cpu (h : t.cpu = s.cpu) : CoreRests s t := by
  unfold CoreRests
  rw [h]
  exact ⟨rfl, rfl⟩

theorem CoreRests.of_dev (h : DevFrame s t) : CoreRests s t := ⟨h.stopped, h.regs⟩

/-- No step of the host reaches the core. -/
theorem deliver_cpu (x : Config.HostStep) (s : State) : (deliver x s).cpu = s.cpu := by
  cases x <;> simp only [deliver, hostMouseMove, hostMouseButton, hostJoystick, insertDisk]
  case mouseMove | mouseButton | joystick | insertSt | insertMsa => split <;> rfl
  all_goals rfl

theorem deliverAll_cpu (l : List Config.HostStep) (s : State) : (deliverAll l s).cpu = s.cpu := by
  induction l generalizing s with
  | nil => rfl
  | cons x t ih => exact (ih _).trans (deliver_cpu x s)

theorem CoreRests.endLine (h : CoreRests s t) : CoreRests s (endLine t) := by
  unfold Machine.endLine
  split <;> exact h

theorem blitLine_cpu {vc : Addr} {row : Nat} (h : blitLine vc row s = .next t) : t.cpu = s.cpu := by
  unfold blitLine at h
  split at h <;> cases h <;> rfl

/-- A batch of an idle core counts cycles, and nothing else. -/
theorem batchStep_idle {n : Nat} {next : Act} (idle : coreIdle s = true) (h : batchStep n next s = .next t) :
    CoreRests s t := by
  unfold batchStep at h
  rw [if_pos idle] at h
  split at h <;> cases h <;> exact ⟨rfl, rfl⟩

/-- Before a frame only the reset that the host asked for reaches the core (46_frame_loop.md R440). -/
theorem beforeFrame_rests (s : State) :
    CoreRests s (beforeFrame s) ∨ (s.loop.running = false ∧ s.loop.request = some .reset) := by
  unfold beforeFrame
  split
  · exact .inl ⟨rfl, rfl⟩
  · next halted =>
    split
    · next asked => exact .inr ⟨Bool.eq_false_iff.2 halted, asked⟩
    all_goals exact .inl ⟨rfl, rfl⟩

/-- An idle core rests in every action of the frame loop, but for the test that finds the host's reset. -/
theorem emulatorStep_idle (idle : coreIdle s = true) (h : emulatorStep s = .next t) :
    CoreRests s t ∨ (s.loop.act = .latch ∧ s.loop.running = false ∧ s.loop.request = some .reset) := by
  unfold emulatorStep at h
  cases act : s.loop.act <;> rw [act] at h <;> dsimp only at h
  case latch =>
    cases h
    exact (beforeFrame_rests s).imp_right fun reset => ⟨rfl, reset⟩
  all_goals left
  case cpuMain | cpuTail => exact batchStep_idle idle h
  case mfpMain | mfpTail =>
    cases h
    have timers (n : Nat) : CoreRests s (updateTimers n s) := .of_dev (updateTimers_irq n s).dev
    exact timers _
  case acia =>
    cases h
    have sync : CoreRests s (aciaSync 512 s) := .of_dev (aciaSync_dev 512 s)
    split
    · exact sync
    · exact sync.endLine
  case render =>
    obtain ⟨u, blit, h⟩ := andThen_next h
    cases h
    have row : CoreRests s u := .of_cpu (blitLine_cpu blit)
    exact row
  case eventTicks =>
    cases h
    have ticks : CoreRests s (eventTicks s) := .of_dev ((tickEvent_irq .a s).trans (tickEvent_irq .b _)).dev
    exact ticks.endLine
  case complete => cases h; exact .of_cpu (deliverAll_cpu s.host.inbox _)
  case ymMain | ymTail | hbl | writeBack | advance | vbl | pace | ended => cases h; exact ⟨rfl, rfl⟩

end

/-- Settles O19: no level passes mask 7, so the stopped core is idle, and it rests in every action but the reset's. -/
theorem stopAtMaskSevenNeverResumes : Obligations.StopAtMaskSevenNeverResumes := by
  intro s t irq stopped mask h
  have idle : coreIdle s = true := by
    unfold coreIdle
    rw [stopped, interruptAccepted_maskSeven irq mask]
    rfl
  exact (emulatorStep_idle idle h).imp_left fun ⟨still, regs⟩ => ⟨still.trans stopped, regs⟩

end Sys2Proof

namespace Sys2Proof
open Machine

/-! ## The guarded skip of a bus error (60_exceptions.md R455) -/

section
variable {s : State} {a f : Addr} {w : Width} (hv : longAt s 8 = 0) (hf : firstBusError w a = some f)
include hv hf

theorem memRead_skipsBusError (prog : Bool) :
    memRead w a prog s = .next (answer (drawOfWidth w (drawWord s)) (nextDraw s)) := by
  unfold memRead busErrorRead
  rw [hf]
  exact if_pos hv

theorem memWrite_skipsBusError (v : Word) : memWrite w a v s = .next s := by
  unfold memWrite busErrorWrite
  rw [hf]
  exact if_pos hv

end

/-- Settles O45: each row is the access, which the bus error skips. -/
theorem busErrorsAreSkippedWithoutAVector : Obligations.BusErrorsAreSkippedWithoutAVector := by
  refine fun s a f w v hv hf => ⟨fun i hi => ?read, fun i hi => ?write⟩
  case read =>
    rw [exec_berrRows hi, busAccess_readAccess, memRead_skipsBusError hv hf]
    rfl
  case write => rw [exec_berrRows hi, busAccess_writeAccess, memWrite_skipsBusError hv hf]

end Sys2Proof

namespace Sys2Proof
open Machine

/-! ## The double fault (60_exceptions.md R457)

A frame that meets a bus-error range lies within 14 bytes of it, where every other byte is plain storage
of the I/O page.
So each write of the frame halts the core or stores in the I/O mirror, far from the vector at 8. -/

/-- An access meets a bus-error range exactly if one of its bytes does. -/
theorem firstBusError_isSome {w : Width} {a : Addr} :
    (firstBusError w a).isSome ↔ ∃ i, i < widthBytes w ∧ (berrUnit (a + BitVec.ofNat 24 i)).isSome := by
  unfold firstBusError accessAddrs
  simp [List.find?_isSome]

theorem firstBusError_byte_isSome {a : Addr} : (firstBusError .byte a).isSome ↔ (berrUnit a).isSome := by
  rw [firstBusError_isSome]
  simp [widthBytes]

/-- The bytes of a 14-byte frame that meets a bus-error range. -/
def NearBusError (a : Addr) : Prop := 0xFF88F3 ≤ a.toNat ∧ a.toNat ≤ 0xFF922F

theorem berrUnit_range {a : Addr} (h : (berrUnit a).isSome = true) : 0xFF8900 ≤ a.toNat ∧ a.toNat ≤ 0xFF9222 := by
  unfold berrUnit at h
  repeat' split at h
  all_goals first | omega | cases h

theorem nearBusError_of_frame {b : Addr} {j k : Nat} (hj : j < 14) (hk : k < 14)
    (h : (berrUnit (b + BitVec.ofNat 24 k)).isSome = true) : NearBusError (b + BitVec.ofNat 24 j) := by
  obtain ⟨low, high⟩ := berrUnit_range h
  unfold NearBusError
  simp only [BitVec.toNat_add, BitVec.toNat_ofNat] at low high ⊢
  omega

/-- No register is claimed within 14 bytes of a bus-error range (20_memory.md R88, R90). -/
theorem ioReg_nearBusError {a : Addr} (h : NearBusError a) : ioReg a = none := by
  obtain ⟨low, high⟩ := h
  have free {α : Type} (l : List (Nat × α)) (hl : ∀ c ∈ l, c.1 < 0xFF88F3 ∨ 0xFF922F < c.1) :
      tableFind l a.toNat = none := by
    cases e : tableFind l a.toNat with
    | none => rfl
    | some x => have := hl _ (tableFind_mem e); omega
  unfold ioReg
  rw [free ioRegTable (by decide)]
  exact free mfpRegTable (by decide)

/-- A write moves the low bits of its value alone. -/
theorem writeRaw_lowBits (w : Width) (a : Addr) (v : Word) (s : State) :
    writeRaw w a (drawOfWidth w v) s = writeRaw w a v s := by
  cases w with
  | byte =>
    show write8 a (((v.setWidth 8).setWidth 32).setWidth 8) s = _
    rw [BitVec.setWidth_setWidth_of_le _ (by omega), BitVec.setWidth_eq]
    rfl
  | word =>
    show write16 a (((v.setWidth 16).setWidth 32).setWidth 16) s = _
    rw [BitVec.setWidth_setWidth_of_le _ (by omega), BitVec.setWidth_eq]
    rfl
  | long => rfl

/-- Near a bus-error range an access that raises no bus error is one of plain storage. -/
theorem allPlain_nearBusError {w : Width} {a : Addr} (near : ∀ b ∈ accessAddrs w a, NearBusError b)
    (h : firstBusError w a = none) : allPlain w a = true := by
  refine allPlain_iff.2 fun b hb => ⟨?io, ioReg_nearBusError (near b hb), ?noBusError⟩
  case io =>
    obtain ⟨low, -⟩ := near b hb
    omega
  case noBusError =>
    unfold firstBusError at h
    simpa using List.find?_eq_none.1 h b hb

/-- A write of a frame near a bus-error range raises the second bus error, or stores in the I/O mirror. -/
theorem frameWrite_nearBusError {s : State} {w : Width} {a : Word} (v : Word) (hv : longAt s 8 ≠ 0)
    (near : ∀ b ∈ accessAddrs w (busAddr a), NearBusError b) :
    frameWrite w a v s = .fault .cpuHalted
      ∨ firstBusError w (busAddr a) = none ∧ ∃ t, frameWrite w a v s = .next t ∧ longAt t 8 ≠ 0 := by
  unfold frameWrite
  cases e : firstBusError w (busAddr a) with
  | some b => exact .inl (if_neg hv)
  | none =>
    have high : 0xFF88F3 ≤ (busAddr a).toNat := by
      have first : busAddr a ∈ accessAddrs w (busAddr a) :=
        List.mem_map.2 ⟨0, List.mem_range.2 (by cases w <;> decide), BitVec.add_zero _⟩
      exact (near _ first).1
    have vector : longAt (storeValue w (busAddr a).toNat v s) 8 = longAt s 8 :=
      longAt_congr fun i _ _ => storeValue_sameBytes w _ v s i (by omega)
    refine .inr ⟨rfl, storeValue w (busAddr a).toNat v s, ?_, vector.trans_ne hv⟩
    show writeRaw w (busAddr a) v s = _
    rw [← writeRaw_lowBits, writeRaw_plain s (allPlain_nearBusError near e)]

theorem andThen_id (o : Host.Outcome State Fault Refusal) : andThen o .next = o := by
  cases o <;> rfl

/-- A field at offset `n` of a frame whose byte `k` lies in a bus-error range: if the byte is of the field the core
halts, and else it halts where the rest of the frame does. -/
theorem frameField_halts {s : State} {b : Addr} {k n : Nat} {w : Width} {a v : Word}
    {f : State → Host.Outcome State Fault Refusal} (hv : longAt s 8 ≠ 0) (hk : k < 14)
    (hit : (berrUnit (b + BitVec.ofNat 24 k)).isSome = true) (ha : busAddr a = b + BitVec.ofNat 24 n)
    (hn : n + widthBytes w ≤ 14)
    (rest : ¬ (n ≤ k ∧ k < n + widthBytes w) → ∀ t, longAt t 8 ≠ 0 → f t = .fault .cpuHalted) :
    andThen (frameWrite w a v s) f = .fault .cpuHalted := by
  have byte (i : Nat) : busAddr a + BitVec.ofNat 24 i = b + BitVec.ofNat 24 (n + i) := by
    rw [ha, BitVec.add_assoc, ← BitVec.ofNat_add]
  have near : ∀ x ∈ accessAddrs w (busAddr a), NearBusError x := by
    intro x hx
    obtain ⟨i, hi, rfl⟩ := List.mem_map.1 hx
    rw [byte]
    exact nearBusError_of_frame (by have := List.mem_range.1 hi; omega) hk hit
  obtain halts | ⟨clear, t, write, vector⟩ := frameWrite_nearBusError v hv near
  · rw [halts]
    rfl
  · rw [write]
    refine rest (fun ⟨low, high⟩ => ?_) t vector
    have meets : (firstBusError w (busAddr a)).isSome = true := by
      refine firstBusError_isSome.2 ⟨k - n, by omega, ?_⟩
      rwa [byte, Nat.add_sub_cancel' low]
    rw [clear] at meets
    cases meets

/-- The group-0 frame to be pushed meets an odd SSP, or a bus-error range with one of its 14 bytes. -/
def FrameHalts (s : State) : Prop :=
  s.cpu.regs.ssp.getLsbD 0 = true
    ∨ ∃ k, k < 14 ∧ (berrUnit (busAddr (s.cpu.regs.ssp - 14#32) + BitVec.ofNat 24 k)).isSome = true

/-- The push of such a frame halts, whichever of its fields comes to the bus error first. -/
theorem pushGroup0_halts {s : State} (hv : longAt s 8 ≠ 0) (h : FrameHalts s) (addr : Addr) (rd prog : Bool)
    (sr0 : Half) : pushGroup0 addr rd prog sr0 s = .fault .cpuHalted := by
  have parity : (s.cpu.regs.ssp - 14#32).getLsbD 0 = s.cpu.regs.ssp.getLsbD 0 := even_sub (n := 14) rfl
  unfold pushGroup0
  dsimp only
  rw [parity]
  split
  · rfl
  · next even =>
    obtain ⟨k, hk, hit⟩ := h.resolve_left even
    generalize hb : busAddr (s.cpu.regs.ssp - 14#32) = b at hit
    have field (n : Nat) : busAddr (s.cpu.regs.ssp - 14#32 + BitVec.ofNat 32 n) = b + BitVec.ofNat 24 n := by
      rw [busAddr_add, hb]
    refine frameField_halts (n := 0) hv hk hit (by rw [hb, BitVec.add_zero]) (by decide) fun h0 _ v1 => ?_
    refine frameField_halts v1 hk hit (field 2) (by decide) fun h2 _ v2 => ?_
    refine frameField_halts v2 hk hit (field 6) (by decide) fun h6 _ v3 => ?_
    refine frameField_halts v3 hk hit (field 8) (by decide) fun h8 _ v4 => ?_
    rw [← andThen_id (frameWrite ..)]
    refine frameField_halts v4 hk hit (field 10) (by decide) fun h10 => ?_
    simp only [widthBytes] at h0 h2 h6 h8 h10
    omega

theorem takeGroup0_halts {s : State} (hv : longAt s 8 ≠ 0) (h : FrameHalts s) (addr : Addr) (rd prog : Bool)
    (f : State → Word) : takeGroup0 addr rd prog f s = .fault .cpuHalted := by
  unfold takeGroup0
  rw [pushGroup0_halts (s := enterSupervisor s) hv h]
  rfl

/-- The core stops a word or long access at an odd address (60_exceptions.md R458). -/
theorem misaligned_of_odd {w : Width} {a : Word} (hw : w ≠ .byte) (ha : a.getLsbD 0 = true) :
    misaligned w a = true := by
  unfold misaligned
  rw [ha, Bool.and_true]
  exact bne_iff_ne.2 hw

/-- Settles O47: each access takes a group-0 exception, whose frame halts. -/
theorem secondBusErrorsHalt : Obligations.SecondBusErrorsHalt := by
  intro s w v hv hframe
  simp only [firstBusError_byte_isSome] at hframe
  have halts := takeGroup0_halts hv hframe
  refine ⟨fun a ha i hi => ?_, fun a prog hw ha => ⟨?_, ?_⟩⟩
  · obtain ⟨f, hf⟩ := Option.isSome_iff_exists.1 ha
    obtain hi | hi := List.mem_append.1 hi
    · rw [exec_berrRows hi, busAccess_readAccess, memRead_takesBusError hv hf, halts]
    · rw [exec_berrRows hi, busAccess_writeAccess, memWrite_takesBusError hv hf, halts]
  · unfold cpuRead
    rw [if_pos (misaligned_of_odd hw ha)]
    exact halts _ _ _ _
  · unfold cpuWrite
    rw [if_pos (misaligned_of_odd hw ha)]
    exact halts _ _ _ _

end Sys2Proof

namespace Sys2Proof
open Machine

/-! ## The core's short-frame exceptions (60_exceptions.md R459, R466) -/

/-- A mask holds the line of a word, its first hex digit, and the value lies on neither emulator line. -/
def otherLine (m c : Half) : Bool :=
  m &&& 0xF000#16 == 0xF000#16 && c &&& 0xF000#16 != 0xA000#16 && c &&& 0xF000#16 != 0xF000#16

/-- A word of an emulator line is not the value, under the mask. -/
theorem and_ne_of_otherLine {op m c : Half} (h : op &&& 0xF000#16 = 0xA000#16 ∨ op &&& 0xF000#16 = 0xF000#16)
    (hc : otherLine m c = true) : op &&& m ≠ c := by
  rintro rfl
  unfold otherLine at hc
  simp only [Bool.and_eq_true, beq_iff_eq, bne_iff_ne] at hc
  obtain ⟨⟨digit, notA⟩, notF⟩ := hc
  rw [BitVec.and_assoc, digit] at notA notF
  exact h.elim notA notF

/-- The forms of R152 and ILLEGAL lie on other lines, so a word of an emulator line takes its exception (R459). -/
theorem coreForm_emulatorLine {op : Half} (h : op &&& 0xF000#16 = 0xA000#16 ∨ op &&& 0xF000#16 = 0xF000#16) :
    coreForm op = if op &&& 0xF000#16 = 0xA000#16 then .lineA else .lineF := by
  have under (m c : Half) (hc : otherLine m c = true) : op &&& m ≠ c := and_ne_of_otherLine h hc
  have whole (c : Half) (hc : otherLine 0xFFFF#16 c = true) : op ≠ c := fun e =>
    under _ c hc ((BitVec.and_allOnes (x := op)).trans e)
  unfold coreForm coreFieldForm
  dsimp only
  rw [if_neg (whole 0x13FC#16 rfl), if_neg (whole 0x33FC#16 rfl), if_neg (whole 0x23FC#16 rfl),
    if_neg (whole 0x0839#16 rfl), if_neg (whole 0x4E72#16 rfl), if_neg (whole 0x4E73#16 rfl),
    if_neg (whole 0x4AFC#16 rfl), if_neg (under 0xF1FF#16 0x1039#16 rfl), if_neg (under 0xF1FF#16 0x3039#16 rfl),
    if_neg (under 0xFFF8#16 0x13C0#16 rfl), if_neg (under 0xFFF8#16 0x5280#16 rfl),
    if_neg (under 0xF100#16 0x7000#16 rfl), if_neg fun e => under 0xFF00#16 0x6700#16 rfl e.1,
    if_neg fun e => under 0xFF00#16 0x6600#16 rfl e.1, if_neg fun e => under 0xFF00#16 0x6000#16 rfl e.1]
  split
  · rfl
  · next notA => exact if_pos (h.resolve_left notA)

/-- The instructions that take their exception with their own address: ILLEGAL, the emulator lines, and the privileged
forms of R152 in user mode (R459, R466). -/
theorem coreExecute_exception {s : State} {op : Half} {n : Nat} (hir : s.cpu.ir = op)
    (h : (n = 4 ∧ op = 0x4AFC) ∨ (n = 10 ∧ op &&& 0xF000#16 = 0xA000#16) ∨ (n = 11 ∧ op &&& 0xF000#16 = 0xF000#16)
      ∨ (n = 8 ∧ srS s.cpu.regs.sr = false ∧ (op = 0x4E72 ∨ op = 0x4E73))) :
    coreExecute s = takeException (BitVec.ofNat 8 n) s.cpu.ipc s := by
  unfold coreExecute
  dsimp only
  rw [hir]
  obtain ⟨rfl, rfl⟩ | ⟨rfl, line⟩ | ⟨rfl, line⟩ | ⟨rfl, user, rfl | rfl⟩ := h
  · rfl
  · rw [coreForm_emulatorLine (.inl line), if_pos line]
    rfl
  · rw [coreForm_emulatorLine (.inr line), line]
    rfl
  · exact privileged_of_user coreStop user
  · exact privileged_of_user returnFromException user

/-- Settles O52: the word is fetched from RAM, and its exception pushes the short frame there. -/
theorem shortFrameExceptionsAreTaken : Obligations.ShortFrameExceptionsAreTaken := by
  intro s n op b hs hi hstop heven hin hop fresh hn hb hssp hstack
  obtain ⟨t, take, frame, fields, kept⟩ := takeException_ram (v := BitVec.ofNat 8 n) (pc := s.cpu.regs.pc)
    (s := firstFetched op s) hb hssp hstack rfl
  obtain ⟨-, sr, pc⟩ := fields hs
  have number : (BitVec.ofNat 8 n).toNat = n ∧ 2 ≤ n := by
    obtain ⟨rfl, -⟩ | ⟨rfl, -⟩ | ⟨rfl, -⟩ | ⟨rfl, -⟩ := hn <;> decide
  obtain ⟨vector, two⟩ := number
  have handler : vectorAddr (BitVec.ofNat 8 n) t = longAt t (4 * n) := by
    rw [vector_long (by omega), vector]
  have run : coreStep s = takeException (BitVec.ofNat 8 n) s.cpu.regs.pc (firstFetched op s) :=
    (coreStep_firstFetched hi hstop heven rfl hin fresh hop.symm).trans
      (coreExecute_exception (s := firstFetched op s) rfl hn)
  rw [handler] at frame
  exact ⟨t, run.trans take, frame, fun k hk => kept k (by omega), sr, pc⟩

end Sys2Proof

namespace Sys2Proof
open Machine

/-! ## The configurations power-on accepts (70_reset_and_hazards.md R490, R494, R495) -/

theorem ramOfConfiguration_inRange {n : Int} {ram : Config.RamSize} (h : ramOfConfiguration n = some ram) :
    0 ≤ n ∧ n ≤ 3 := by
  by_contra outside
  unfold ramOfConfiguration at h
  rw [if_neg (by omega), if_neg (by omega), if_neg (by omega), if_neg (by omega)] at h
  cases h

theorem ramOfConfiguration_bytes {n : Int} (low : 0 ≤ n) (high : n ≤ 3) :
    ∃ ram, ramOfConfiguration n = some ram
      ∧ ∀ p : Config.Params, p.ramSize = ram → ramBytes p = 0x80000 * 2 ^ n.toNat := by
  unfold ramBytes
  obtain rfl | rfl | rfl | rfl : n = 0 ∨ n = 1 ∨ n = 2 ∨ n = 3 := by omega
  · exact ⟨.k512, rfl, fun p h => by rw [h]; rfl⟩
  · exact ⟨.m1, rfl, fun p h => by rw [h]; rfl⟩
  · exact ⟨.m2, rfl, fun p h => by rw [h]; rfl⟩
  · exact ⟨.m4, rfl, fun p h => by rw [h]; rfl⟩

theorem tosSizeOf_length {image : List Byte} {size : Config.TosSize} (h : tosSizeOf image = some size) :
    image.length = 0x30000 ∨ image.length = 0x40000 := by
  by_contra outside
  unfold tosSizeOf at h
  rw [if_neg (by omega), if_neg (by omega)] at h
  cases h

theorem tosSizeOf_bytes {image : List Byte} (h : image.length = 0x30000 ∨ image.length = 0x40000) :
    ∃ size, tosSizeOf image = some size
      ∧ ∀ p : Config.Params, p.tosSize = size → tosBytes p = image.length := by
  unfold tosSizeOf tosBytes
  obtain h | h := h <;> rw [h]
  · exact ⟨.k192, rfl, fun p hp => by rw [hp]⟩
  · exact ⟨.k256, rfl, fun p hp => by rw [hp]⟩

/-- The number options of R495 other than `RAMConfiguration` have values the block can start with. -/
def ValuesInRange (c : BootConfig) : Prop :=
  c.stModel = 0 ∧ 0 < c.mouseX ∧ 0 < c.mouseY ∧ 0 < c.sampleRate ∧ c.sampleRate ≤ 16384000000

/-- The parameters of a configuration, once its RAM and ROM sizes are read. -/
def configuredParams (p : Config.Params) (c : BootConfig) (ram : Config.RamSize) (size : Config.TosSize) :
    Config.Params :=
  { p with
    ramSize := ram, tosSize := size, hostRate := c.sampleRate.toNat,
    mouseSensX := c.mouseX.toNat, mouseSensY := c.mouseY.toNat, maxSpeed := c.maxSpeed }

theorem bootParams_eq_some {p q : Config.Params} {c : BootConfig} {image : List Byte} :
    bootParams p c image = some q ↔ ValuesInRange c ∧ ∃ ram size, ramOfConfiguration c.ramConfiguration = some ram
      ∧ tosSizeOf image = some size ∧ configuredParams p c ram size = q := by
  unfold bootParams
  cases ramOfConfiguration c.ramConfiguration with
  | none => simp
  | some ram =>
    cases tosSizeOf image with
    | none => simp
    | some size => simp [ValuesInRange, configuredParams]

/-- Values in range are the ones `validParams` asks for (log 30). -/
theorem validParams_configuredParams {p : Config.Params} {c : BootConfig} {ram : Config.RamSize}
    {size : Config.TosSize} (values : ValuesInRange c) (lens : ikbdLensOk p = true) :
    validParams (configuredParams p c ram size) = true := by
  obtain ⟨-, mouseX, mouseY, positive, bounded⟩ := values
  have lens' : ikbdLensOk (configuredParams p c ram size) = true := lens
  unfold validParams
  rw [lens']
  simp [configuredParams, *]

theorem bootDisk_eq_some {sides : Config.MsaSides} {f : Option (Option FloppyFile)} {d : Option Floppy} :
    bootDisk sides f = some d ↔
      (f = none ∧ d = none) ∨ ∃ x y, f = some (some x) ∧ loadFloppy sides x = some y ∧ d = some y := by
  match f with
  | none => simp [bootDisk, eq_comm]
  | some none => simp [bootDisk]
  | some (some x) => simp [bootDisk, eq_comm]

/-- The disks R495 refuses: a file that is unreadable or rejected. -/
theorem bootDisk_eq_none {sides : Config.MsaSides} {f : Option (Option FloppyFile)} :
    bootDisk sides f = none ↔ f = some none ∨ ∃ x, f = some (some x) ∧ loadFloppy sides x = none := by
  match f with
  | none => simp [bootDisk]
  | some none => simp [bootDisk]
  | some (some x) => simp [bootDisk]

section
variable {p : Config.Params} {doc : Option JsonConfig} {cli : List CliFlag} {j : JsonConfig}

theorem powerOn_help (help : .help ∈ cli) : powerOn p doc cli = none := if_pos help

theorem powerOn_malformed (noHelp : .help ∉ cli) (json : jsonInForce doc cli = none) :
    powerOn p doc cli = some (.refused .configError) := by
  simp only [powerOn, if_neg noHelp, json]

theorem powerOn_unreadableTos (noHelp : .help ∉ cli) (json : jsonInForce doc cli = some j)
    (tos : (combineConfig p j cli).tos = none) : powerOn p doc cli = some (.refused .configError) := by
  simp only [powerOn, if_neg noHelp, json, tos]

variable {image : List Byte}

theorem powerOn_starts {q : Config.Params} {d : Option Floppy} (noHelp : .help ∉ cli)
    (json : jsonInForce doc cli = some j) (tos : (combineConfig p j cli).tos = some image)
    (params : bootParams p (combineConfig p j cli) image = some q)
    (disk : bootDisk p.msaSides (combineConfig p j cli).floppy = some d) :
    powerOn p doc cli = some (.next (powerOnState q image d)) := by
  simp only [powerOn, if_neg noHelp, json, tos, params, disk]

/-- `simp` uses `reject` as the condition under which `powerOn` takes its last arm. -/
theorem powerOn_refuses (noHelp : .help ∉ cli) (json : jsonInForce doc cli = some j)
    (tos : (combineConfig p j cli).tos = some image)
    (reject : ∀ q d, bootParams p (combineConfig p j cli) image = some q →
      bootDisk p.msaSides (combineConfig p j cli).floppy ≠ some d) :
    powerOn p doc cli = some (.refused .configError) := by
  simp only [powerOn, if_neg noHelp, json, tos]

end

/-- Settles O25: `bootParams` and `bootDisk` answer on exactly the configurations that none of R495's errors meets. -/
theorem configurationErrorsRefuse : Obligations.ConfigurationErrorsRefuse := by
  intro p doc cli
  refine ⟨powerOn_help, powerOn_malformed, ?_⟩
  rintro j c noHelp json rfl
  refine ⟨powerOn_unreadableTos noHelp json, fun image tos => ⟨fun error => ?_, ?_⟩⟩
  · refine powerOn_refuses noHelp json tos fun q d params disk => ?_
    obtain ⟨⟨model, mouseX, mouseY, positive, bounded⟩, ram, size, hram, hsize, -⟩ := bootParams_eq_some.mp params
    have ramRange := ramOfConfiguration_inRange hram
    have length := tosSizeOf_length hsize
    simp only [← bootDisk_eq_none, disk, reduceCtorEq, or_false] at error
    omega
  · intro length low high model mouseX mouseY positive bounded d disk
    obtain ⟨ram, hram, ramLength⟩ := ramOfConfiguration_bytes low high
    obtain ⟨size, hsize, romLength⟩ := tosSizeOf_bytes length
    have values : ValuesInRange (combineConfig p j cli) := ⟨model, mouseX, mouseY, positive, bounded⟩
    have params := (bootParams_eq_some (p := p)).mpr ⟨values, ram, size, hram, hsize, rfl⟩
    exact ⟨_, powerOn_starts noHelp json tos params (bootDisk_eq_some.mpr disk), romLength _ rfl, ramLength _ rfl,
      Int.toNat_of_nonneg positive.le, Int.toNat_of_nonneg mouseX.le, Int.toNat_of_nonneg mouseY.le, rfl,
      validParams_configuredParams values⟩

end Sys2Proof
